-- ==== Sys2Proof/Word.lean ====
section
/-! DEFINITION. The words of the EG3012, its numbered units, and tables with one entry per unit. -/

namespace Sys2Proof

/-- One byte of a frame, or a field the spec gives one byte (R164). -/
abbrev Byte := BitVec 8

/-- A two-byte number: the 16-bit counters, limits and durations (00 section 5). -/
abbrev Half := BitVec 16

/-- A value of the hub clock, a 32-bit count of milliseconds that wraps (R1, R2). -/
abbrev Time := BitVec 32

/-- A routable source S0 to S29 (00 section 4). -/
abbrev Source := Fin 30

/-- An external source S0 to S23, by its pin number (00 section 4). -/
abbrev External := Fin 24

/-- An internal source S24 to S29, counted from 0 (00 section 4). -/
abbrev Internal := Fin 6

/-- An attention line L0 to L7. -/
abbrev Line := Fin 8

/-- A grant channel C0 to C3. -/
abbrev Channel := Fin 4

/-- A requester port Q0 to Q11. -/
abbrev Requester := Fin 12

/-- A priority, 0 to 3, of a binding or of a requester; 0 is most urgent (00 section 5). -/
abbrev Priority := Fin 4

/-- The level of a pin or of a source. -/
inductive Level where
  | low
  | high
deriving DecidableEq, Repr

/-- A table with one entry for each of `n` like units. -/
abbrev Tbl (n : Nat) (α : Type) := Vector α n

/-- The levels of the twelve REQ pins, or of the twelve DONE pins. -/
abbrev Pins := Tbl 12 Level

/-- The entry of unit `i`. -/
def Tbl.read {n : Nat} {α : Type} (t : Tbl n α) (i : Fin n) : α := t[i.val]

/-- The table with the entry of unit `i` replaced. -/
def Tbl.write {n : Nat} {α : Type} (t : Tbl n α) (i : Fin n) (a : α) : Tbl n α := t.set i.val a

/-- The table whose entry for unit `i` is `f i`. -/
def Tbl.build {n : Nat} {α : Type} (f : Fin n → α) : Tbl n α := Vector.ofFn f

/-- The table with the same entry for every unit. -/
def Tbl.fill {α : Type} (n : Nat) (a : α) : Tbl n α := Vector.replicate n a

end Sys2Proof
end

