-- ==== Sys2Proof/Syntax.lean ====
section
/-! DEFINITION. The commands of the EG3012: one constructor per row of spec/opcode_table.json, in the table's order.
A request carries no operand: it is the dispatcher's taking of the oldest frame of the receive buffer (R139), and the
request's fields are that frame's body (R169). -/

namespace Sys2Proof

/-- One step of the part (95_what_each_step_holds.md). -/
inductive Instr where
  /-- The end of power-on reset (R174), with the level of the RSTN pin and of the REQ pins read then (R111). -/
  | powerOnReset (rstn : Level) (req : Pins)
  /-- RSTN is taken low (R175). -/
  | rstnLow
  /-- RSTN is taken released (R175), with the REQ levels read then (R112). -/
  | rstnRelease (req : Pins)
  /-- The reference clock stops (R173). -/
  | refclkStop
  /-- The reference clock returns (R173). -/
  | refclkReturn
  /-- A sample instant of the SCU (R4), with the levels of SRC0 to SRC23. -/
  | sampleInstant (src : Tbl 24 Level)
  /-- The RTU takes the oldest report of a source (R8, R9). -/
  | levelChangeReport (source : Source)
  /-- The ALD takes a join trigger of a line (R63, R64). -/
  | joinTrigger (line : Line)
  /-- The ALD takes a reminder trigger of a line (R49, R63). -/
  | reminderTrigger (line : Line)
  /-- The ALD takes a change of a set's occupancy (R61). -/
  | occupancyChange (line : Line)
  /-- A line's width timer expires (R65). -/
  | widthTimerExpiry (line : Line)
  /-- A line's gap timer expires (R66). -/
  | gapTimerExpiry (line : Line)
  /-- The NQ takes a SOURCE_EVENT post (R83). -/
  | sourceEventPost
  /-- The NQ takes a GRANT_EVENT post (R84). -/
  | grantEventPost
  /-- A channel's sample event (R99), with the levels of REQ0 to REQ11 and DONE0 to DONE11 at the sample instant. -/
  | channelSampleEvent (channel : Channel) (req : Pins) (done : Pins)
  /-- A channel's hold timer expires (R122). -/
  | holdTimerExpiry (channel : Channel)
  /-- A channel's settle timer expires (R124). -/
  | settleTimerExpiry (channel : Channel)
  /-- A character ends with its stop bit at space (R132). -/
  | framingFault
  /-- A third header byte above 40 is received (R135). -/
  | lengthError (length : Byte)
  /-- The inter-character gap timer expires (R137). -/
  | gapLimitExpiry
  /-- The second check byte is received (R136). -/
  | frameReceived (check : Byte)
  /-- The notice sender takes a good-frame indication (R158). The operand says whether an idle transmitter takes the
  claim of the recovery round before the reply of the request (R144, R158: either may be first). -/
  | goodFrameIndication (noticeFirst : Bool)
  /-- The dispatcher takes a frame of a non-request kind (R139). -/
  | badKind
  /-- The dispatcher takes a duplicate (R140). -/
  | duplicate
  | status
  | bind
  | unbind
  | sourceQuery
  | maskOn
  | maskOff
  | service
  | pendingList
  | lineSet
  | lineQuery
  | channelSet
  | assign
  | channelQuery
  | revoke
  | noticeAck
  | linkSet
  | resync
  /-- The last byte of a frame has been sent (R144). -/
  | frameSent
  /-- The retransmit timer expires (R156). -/
  | retransmitTimerExpiry
  /-- The hub clock increases by one (R1). -/
  | hubClockIncrement
  /-- A character with its stop bit at mark is received (R132, R134). -/
  | characterReceived (byte : Byte)
  /-- A start bit is seen on RXD (R137). -/
  | startBit
  /-- RXD is seen at mark again after a framing fault (R132). -/
  | rxdReturnToMark
  /-- The supply falls below its lower operating limit (R174). -/
  | supplyDip
deriving DecidableEq, Repr

end Sys2Proof
end

