-- ==== Sys2Proof/Decode.lean ====
section
/-! DEFINITION. Decoding of table words. The part is a block: no row of spec/opcode_table.json gives bits, so no word
spells a command. Bytes of a frame are decoded by the receiver and by the owners of the requests (R134, R167 to R169). -/

namespace Sys2Proof

/-- The command that a table word spells: none, since no row gives bits. -/
def decodeTableWord (_nbits _w : Nat) : Option Instr := none

end Sys2Proof
end

