-- ==== Sys2Proof/Config.lean ====
section
/-! DEFINITION. The constants of the part. The spec leaves no value open, so there is no free value here. -/

namespace Sys2Proof.Config

/-- The device code of START notices and STATUS replies (R78, R146). -/
def deviceCode : Byte := 0xE3#8

/-- The revision of START notices and STATUS replies (R78, R146). -/
def revision : Byte := 1#8

/-- The notice queue holds at most this many entries (R76). -/
def queueCapacity : Nat := 32

/-- The receive buffer holds at most this many frames (R138). -/
def bufferCapacity : Nat := 2

/-- The reply queue holds at most this many replies (R143). -/
def replyCapacity : Nat := 2

/-- A body has at most this many bytes (R135). -/
def maxBody : Nat := 40

/-- The byte that begins a frame (R164). -/
def sync : Byte := 0xC3#8

/-- The generator polynomial of the check value, without its x^16 term (R165). -/
def crcPolynomial : Half := 0x1021#16

/-- The start value of the check register (R165). -/
def crcInitial : Half := 0xFFFF#16

/-- One unit of the retransmit interval is this many milliseconds (R155). -/
def intervalUnit : Nat := 10

end Sys2Proof.Config
end

