-- ==== Sys2Proof/Machine/State.lean ====
section
/-! DEFINITION. The state of the EG3012, block by block (00 section 2), as plain data, and the state after reset. -/

namespace Sys2Proof.Machine

/-! ### Why a step can stop -/

/-- The faults of the machine. There is none: the spec names no condition that stops the part. -/
inductive Fault where
deriving DecidableEq, Repr

/-- The refusals of the machine. -/
inductive Refusal where
  /-- The command has no meaning yet. Raised by no arm of `exec`; safe. -/
  | notModelled (mnemonic : String)
deriving DecidableEq, Repr

/-! ### Timers -/

/-- A millisecond timer (R3): not running, or running with this many increments of the hub clock left until it expires.
`running 0` has expired, and its expiry is still to be taken. -/
inductive MsTimer where
  | stopped
  | running (left : Nat)
deriving DecidableEq, Repr

/-! ### TBU: the Timebase -/

/-- Whether the part is in a reset (R174, R175). -/
inductive Mode where
  /-- From a supply rise or dip to the end of power-on reset. -/
  | powerOnReset
  /-- RSTN is taken low. -/
  | resetLow
  /-- Out of reset. -/
  | running
deriving DecidableEq, Repr

/-- The Timebase. -/
structure Tbu where
  mode : Mode
  /-- The reference clock runs (R173). -/
  refclk : Bool
  /-- The hub clock (R1). -/
  hubClock : Time
deriving DecidableEq, Repr

/-! ### SCU: the Source Conditioner -/

/-- The accepted level of a source: LOW, HIGH or UNKNOWN (01 section 1.2). -/
inductive Accepted where
  | known (level : Level)
  | unknown
deriving DecidableEq, Repr

/-- The conditioner record of an external source (01 section 1.2). The filter length in use is the binding record's (R7). -/
structure Conditioner where
  /-- The last sample; none before the first sample after a reset. -/
  lastSample : Option Level
  accepted : Accepted
  runLength : Nat
deriving DecidableEq, Repr

/-- The Source Conditioner. -/
structure Scu where
  conditioners : Tbl 24 Conditioner
  /-- The levels of S24 to S29 (R12, R16). -/
  internal : Tbl 6 Level
deriving DecidableEq, Repr

/-- A level-change report (R8). The first-acceptance mark is `previous = .unknown`. -/
structure LevelReport where
  source : Source
  new : Level
  previous : Accepted
  time : Time
deriving DecidableEq, Repr

/-! ### RTU: the Routing Unit -/

/-- Where a binding sends its events (R17, R19). -/
inductive Target where
  | line (line : Line)
  | reportOnly
deriving DecidableEq, Repr

/-- Whether a source may share its line (R17). -/
inductive SourceClass where
  | exclusive
  | shared
deriving DecidableEq, Repr

/-- The sense code of a binding (R9). -/
inductive Sense where
  | levelHigh
  | levelLow
  | rise
  | fall
  | both
deriving DecidableEq, Repr

/-- The routing status of a source (R17). -/
inductive SourceStatus where
  | unbound
  | idle
  | pending
deriving DecidableEq, Repr

/-- A binding record (R17). A record is bound exactly while its status is not UNBOUND; its join order is its place in the
pending set of its line. -/
structure BindingRecord where
  target : Target
  cls : SourceClass
  priority : Priority
  sense : Sense
  filter : Byte
  report : Bool
  mask : Bool
  status : SourceStatus
  again : Bool
  held : Bool
deriving DecidableEq, Repr

/-- The Routing Unit. -/
structure Rtu where
  records : Tbl 30 BindingRecord
  /-- The pending set of each line, in service order (R38). -/
  sets : Tbl 8 (List Source)
  /-- Level-change reports the SCU has made and the RTU has not taken (R8, R58), oldest first. -/
  reports : List LevelReport
deriving DecidableEq, Repr

/-! ### ALD: the Attention Line Driver -/

/-- The mode of a line (R59). -/
inductive LineMode where
  | level
  | pulse
deriving DecidableEq, Repr

/-- The polarity of a line (R59). -/
inductive Polarity where
  | activeLow
  | activeHigh
deriving DecidableEq, Repr

/-- The drive of a line (R59). -/
inductive Drive where
  | pushPull
  | openDrain
deriving DecidableEq, Repr

/-- The settings of a line (R59). -/
structure LineSettings where
  enable : Bool
  mode : LineMode
  polarity : Polarity
  drive : Drive
  /-- The pulse width in microseconds. -/
  width : Byte
  /-- The minimum gap in microseconds. -/
  gap : Byte
deriving DecidableEq, Repr

/-- The pulse phase of a line with its running timer (R62): the width timer runs exactly in PULSE and the gap timer
exactly in GAP. The argument is the length in microseconds the timer was started with. -/
inductive LinePhase where
  | quiet
  | pulse (length : Byte)
  | gap (length : Byte)
deriving DecidableEq, Repr

/-- The output state of a line (R60). -/
inductive LineOutput where
  | off
  | released
  | asserted
deriving DecidableEq, Repr

/-- One attention line. -/
structure LineRecord where
  settings : LineSettings
  phase : LinePhase
  owed : Bool
  output : LineOutput
deriving DecidableEq, Repr

/-- The two kinds of trigger (R40). -/
inductive TriggerKind where
  | join
  | reminder
deriving DecidableEq, Repr

/-- A trigger handed by the RTU to the ALD (R40). -/
structure Trigger where
  kind : TriggerKind
  line : Line
deriving DecidableEq, Repr

/-- The Attention Line Driver. -/
structure Ald where
  lines : Tbl 8 LineRecord
  /-- Triggers handed and not yet taken (R75), oldest first. -/
  triggers : List Trigger
  /-- Lines whose set has changed between empty and nonempty, the change not yet taken (R61), oldest first. -/
  occupancy : List Line
deriving DecidableEq, Repr

/-! ### NQ: the Notice Queue -/

/-- The reset that created a START entry (R78). -/
inductive StartCause where
  | powerOn
  | resetLine
deriving DecidableEq, Repr

/-- What a GRANT_EVENT reports (R80). -/
inductive GrantWhat where
  | granted
  | ended
  | timeout
  | revoked
deriving DecidableEq, Repr

/-- Why a grant ended (R80). -/
inductive EndReason where
  | none
  | released
  | quota
deriving DecidableEq, Repr

/-- The body fields of a GRANT_EVENT (R80). -/
structure GrantEvent where
  channel : Channel
  requester : Requester
  what : GrantWhat
  reason : EndReason
  units : Byte
  duration : Half
  time : Time
deriving DecidableEq, Repr

/-- A SOURCE_EVENT post (R44): also what the RTU makes of an event of a source. -/
structure SourcePost where
  source : Source
  level : Level
  time : Time
deriving DecidableEq, Repr

/-- A post to the NQ (05 section 5.3). -/
inductive Post where
  | source (post : SourcePost)
  | grant (event : GrantEvent)
deriving DecidableEq, Repr

/-- The kind of an entry with its body fields (R77 to R81). -/
inductive NoticeBody where
  | start (cause : StartCause) (device : Byte) (revision : Byte) (time : Time)
  | sourceEvent (source : Source) (count : Byte) (level : Level) (time : Time)
  | grantEvent (event : GrantEvent)
  | loss (count : Half) (time : Time)
deriving DecidableEq, Repr

/-- The delivery state of an entry (R77); the notice number is present only while IN_FLIGHT. -/
inductive Delivery where
  | unsent
  | inFlight (number : Byte)
deriving DecidableEq, Repr

/-- An entry of the notice queue (R77). -/
structure Entry where
  body : NoticeBody
  delivery : Delivery
deriving DecidableEq, Repr

/-- The Notice Queue with its loss record (05 section 5.4). -/
structure Nq where
  /-- The entries, head first (R76). -/
  queue : List Entry
  lossCount : Half
  firstLossTime : Option Time
  /-- Posts handed and not yet taken (R93), oldest first. -/
  posts : List Post
deriving DecidableEq, Repr

/-! ### GAR: the Grant Arbiter -/

/-- Why a requester is BLOCKED (R95); NONE in every other state, so it has no constructor here. -/
inductive BlockReason where
  | timeout
  | revoked
  | reset
deriving DecidableEq, Repr

/-- The state of a requester, with the fields R95 gives it in that state alone. -/
inductive RequesterState where
  | detached
  | idle
  | waiting (passCount : Nat) (promoted : Bool)
  | granted (units : Byte) (start : Time)
  | blocked (reason : BlockReason)
deriving DecidableEq, Repr

/-- A requester record (R95). -/
structure RequesterRecord where
  assigned : Option Channel
  priority : Priority
  state : RequesterState
  reqLevel : Level
  /-- None before the first sample after a reset. -/
  doneLevel : Option Level
deriving DecidableEq, Repr

/-- The order of a wait queue (R97). -/
inductive Policy where
  | arrival
  | priority
deriving DecidableEq, Repr

/-- The settings of a channel (R97). -/
structure ChannelSettings where
  isOpen : Bool
  quota : Byte
  policy : Policy
  holdLimit : Half
  settleLimit : Byte
  ageLimit : Byte
  reportGrants : Bool
deriving DecidableEq, Repr

/-- The phase of a channel, with its holder or its settling requester (R98). -/
inductive ChannelPhase where
  | idle
  | held (holder : Requester)
  | settling (requester : Option Requester)
deriving DecidableEq, Repr

/-- A channel record (R97, R98). -/
structure ChannelRecord where
  settings : ChannelSettings
  phase : ChannelPhase
  /-- The wait queue, head first. -/
  queue : List Requester
  holdTimer : MsTimer
  settleTimer : MsTimer
  grants : Half
  timeouts : Half
  revokes : Half
  lateDones : Half
  strayDones : Half
deriving DecidableEq, Repr

/-- The Grant Arbiter. -/
structure Gar where
  requesters : Tbl 12 RequesterRecord
  channels : Tbl 4 ChannelRecord
deriving DecidableEq, Repr

/-! ### MLK: the Management Link -/

/-- The kind, tag and body of a frame (R164); the length is the body's, and the check value is computed (R165). -/
structure Frame where
  kind : Byte
  tag : Byte
  body : List Byte
deriving DecidableEq, Repr

/-- The receiver's phase with its frame in progress (R134). -/
inductive Receiving where
  | hunt
  /-- HEADER, the kind is next. -/
  | kind
  /-- HEADER, the tag is next. -/
  | tag (kind : Byte)
  /-- HEADER, the length is next. -/
  | length (kind tag : Byte)
  /-- BODY, with the body bytes so far. -/
  | body (kind tag length : Byte) (sofar : List Byte)
  /-- CHECK, the high byte is next. -/
  | checkHigh (kind tag length : Byte) (body : List Byte)
  /-- CHECK, the low byte is next. -/
  | checkLow (kind tag length : Byte) (body : List Byte) (high : Byte)
deriving DecidableEq, Repr

/-- The receiver (R132, R134, R137). -/
structure Receiver where
  receiving : Receiving
  /-- The inter-character gap timer runs. -/
  gapTimer : Bool
  /-- A start bit has been seen and its character is being received. -/
  inCharacter : Bool
  /-- After a framing fault, until RXD has been seen at mark. -/
  awaitMark : Bool
deriving DecidableEq, Repr

/-- A good frame in the receive buffer (R138). -/
structure Buffered where
  frame : Frame
  /-- Its good-frame indication has been handed to the notice sender and not yet taken, or is to be taken again after a
  stall. -/
  indication : Bool
deriving DecidableEq, Repr

/-- A rate code (R131). -/
inductive RateCode where
  | r57600
  | r115200
  | r230400
  | r460800
  | r921600
deriving DecidableEq, Repr

/-- A reply in the reply queue, with its rate switch (R143). -/
structure Reply where
  frame : Frame
  rateSwitch : Option RateCode
deriving DecidableEq, Repr

/-- What the transmitter is sending (R144): nothing, the head of the reply queue, or a notice frame. -/
inductive Transmitter where
  | idle
  | reply
  | notice (frame : Frame)
deriving DecidableEq, Repr

/-- The four link settings (08 section 8.7); `rate` is the rate setting. -/
structure LinkSettings where
  rate : RateCode
  window : Byte
  /-- In units of 10 ms. -/
  interval : Byte
  retryLimit : Byte
deriving DecidableEq, Repr

/-- The seven link counters (08 section 8.6). -/
structure LinkCounters where
  checkErrors : Half
  gapAborts : Half
  lengthErrors : Half
  overruns : Half
  duplicates : Half
  rounds : Half
  stalls : Half
deriving DecidableEq, Repr

/-- The link state of the notice sender (R151). -/
inductive LinkState where
  | running
  | stalled
deriving DecidableEq, Repr

/-- The notice sender (R151). -/
structure Sender where
  link : LinkState
  nextNumber : Byte
  retryCount : Nat
  /-- The retransmit timer. -/
  timer : MsTimer
  /-- The numbers of the IN_FLIGHT entries still to be sent again in the present round, in queue order. -/
  roundList : List Byte
deriving DecidableEq, Repr

/-- The Management Link. -/
structure Mlk where
  receiver : Receiver
  /-- The receive buffer, oldest first (R138). -/
  buffer : List Buffered
  /-- The reply queue, oldest first (R143). -/
  replies : List Reply
  saved : Option Frame
  tx : Transmitter
  settings : LinkSettings
  /-- The rate the receiver and transmitter use at present (R131). -/
  lineRate : RateCode
  counters : LinkCounters
  sender : Sender
deriving DecidableEq, Repr

/-! ### The whole part -/

/-- The state of the EG3012 and the commands that wait. -/
structure State where
  tbu : Tbu
  scu : Scu
  rtu : Rtu
  ald : Ald
  nq : Nq
  gar : Gar
  mlk : Mlk
  /-- The commands that wait, first in, first out. -/
  pending : List Instr
deriving DecidableEq, Repr

/-! ### The values after power-on -/

/-- A conditioner record after either reset (R16). -/
def Conditioner.initial : Conditioner := { lastSample := none, accepted := .unknown, runLength := 0 }

/-- The SCU after power-on (R16), and while RSTN is low. -/
def Scu.initial : Scu :=
  { conditioners := Tbl.fill 24 Conditioner.initial, internal := Tbl.fill 6 .low }

/-- An unbound record (R18). -/
def BindingRecord.unbound : BindingRecord :=
  { target := .line 0, cls := .exclusive, priority := 0, sense := .levelHigh, filter := 0, report := false,
    mask := false, status := .unbound, again := false, held := false }

/-- The RTU after power-on (R37, R58). -/
def Rtu.initial : Rtu :=
  { records := Tbl.fill 30 BindingRecord.unbound, sets := Tbl.fill 8 [], reports := [] }

/-- The default settings of a line (R59, R75). -/
def LineSettings.default : LineSettings :=
  { enable := false, mode := .level, polarity := .activeLow, drive := .pushPull, width := 8, gap := 8 }

/-- The ALD after power-on (R75). -/
def Ald.initial : Ald :=
  { lines := Tbl.fill 8 { settings := LineSettings.default, phase := .quiet, owed := false, output := .off },
    triggers := [], occupancy := [] }

/-- The body of the START entry of a reset (R78). -/
def NoticeBody.startOf (cause : StartCause) : NoticeBody := .start cause Config.deviceCode Config.revision 0

/-- The NQ after a reset with this cause (R92, R93). -/
def Nq.initial (cause : StartCause) : Nq :=
  { queue := [{ body := NoticeBody.startOf cause, delivery := .unsent }], lossCount := 0, firstLossTime := none,
    posts := [] }

/-- A requester record after power-on, with the REQ level read (R111). -/
def RequesterRecord.initial (req : Level) : RequesterRecord :=
  { assigned := none, priority := 3, state := .detached, reqLevel := req, doneLevel := none }

/-- The default settings of a channel (R97). -/
def ChannelSettings.default : ChannelSettings :=
  { isOpen := false, quota := 0, policy := .arrival, holdLimit := 0, settleLimit := 10, ageLimit := 0,
    reportGrants := false }

/-- The working state of a channel after either reset, with its settings (R111, R112). -/
def ChannelRecord.initial (settings : ChannelSettings) : ChannelRecord :=
  { settings := settings, phase := .idle, queue := [], holdTimer := .stopped, settleTimer := .stopped, grants := 0,
    timeouts := 0, revokes := 0, lateDones := 0, strayDones := 0 }

/-- The GAR after power-on, with the REQ levels read (R111). -/
def Gar.initial (req : Pins) : Gar :=
  { requesters := Tbl.build fun q => RequesterRecord.initial (req.read q),
    channels := Tbl.fill 4 (ChannelRecord.initial ChannelSettings.default) }

/-- The receiver after either reset (R150). -/
def Receiver.initial : Receiver := { receiving := .hunt, gapTimer := false, inCharacter := false, awaitMark := false }

/-- The default link settings (08 section 8.7). -/
def LinkSettings.default : LinkSettings := { rate := .r115200, window := 4, interval := 20, retryLimit := 5 }

/-- The link counters at 0 (08 section 8.6). -/
def LinkCounters.zero : LinkCounters :=
  { checkErrors := 0, gapAborts := 0, lengthErrors := 0, overruns := 0, duplicates := 0, rounds := 0, stalls := 0 }

/-- The notice sender after either reset (R151). -/
def Sender.initial : Sender := { link := .running, nextNumber := 1, retryCount := 0, timer := .stopped, roundList := [] }

/-- The MLK after either reset, with its link settings (R150). -/
def Mlk.initial (settings : LinkSettings) : Mlk :=
  { receiver := Receiver.initial, buffer := [], replies := [], saved := none, tx := .idle, settings := settings,
    lineRate := settings.rate, counters := LinkCounters.zero, sender := Sender.initial }

/-- The After power-on values of every block (R16, R37, R58, R75, R93, R111, R150, R151), with the REQ levels read at the
end of power-on reset. -/
def State.powerOn (mode : Mode) (req : Pins) : State :=
  { tbu := { mode := mode, refclk := true, hubClock := 0 }, scu := Scu.initial, rtu := Rtu.initial,
    ald := Ald.initial, nq := Nq.initial .powerOn, gar := Gar.initial req, mlk := Mlk.initial LinkSettings.default,
    pending := [] }

/-- The machine right after reset: the first row of R176's table. Every block holds its After power-on values, RSTN is
high, and at the same moment the START frame has started as notice number 1, so that START is IN_FLIGHT, the next number
is 2 and the retransmit timer runs with 200 ms. DEDUCED (log 1): the reset state is the one after R176's start.
DESIGN CHOICE (log 2): the REQ pins were read LOW. -/
def State.reset : State :=
  let base := State.powerOn .running (Tbl.fill 12 .low)
  { base with
    nq := { base.nq with queue := [{ body := NoticeBody.startOf .powerOn, delivery := .inFlight 1 }] }
    mlk := { base.mlk with
      tx := .notice { kind := 0x40, tag := 1, body := [0, 0xE3, 1, 0, 0, 0, 0] }
      sender := { base.mlk.sender with nextNumber := 2, timer := .running 201 } } }

end Sys2Proof.Machine
end

