-- ==== Sys2Proof/Machine/Ops.lean ====
section
/-! DEFINITION. The shared operations: saturating counts, elapsed time, timers, byte order and check value, ordered lists,
and the update of one block of the state. -/

namespace Sys2Proof.Machine

/-! ### Counts and times -/

/-- A saturating sum: the exact sum where the width holds it, and the greatest value of the width otherwise (00 section 5). -/
def satAdd {w : Nat} (a b : BitVec w) : BitVec w :=
  if a.toNat + b.toNat < 2 ^ w then a + b else BitVec.allOnes w

/-- A saturating count increased by one (00 section 5). -/
def satInc {w : Nat} (a : BitVec w) : BitVec w := satAdd a (1#w)

/-- An elapsed time in milliseconds: the present clock minus the start, modulo 2^32, saturating at 65535 (R3, R110, R120). -/
def elapsed (now start : Time) : Half :=
  if (now - start).toNat < 2 ^ 16 then (now - start).setWidth 16 else BitVec.allOnes 16

/-! ### Millisecond timers (R3) -/

/-- A timer of `n` ms as it is started or restarted: it expires at the (n+1)th increment of the hub clock. -/
def MsTimer.start (n : Nat) : MsTimer := .running (n + 1)

/-- One increment of the hub clock. -/
def MsTimer.tick : MsTimer → MsTimer
  | .stopped => .stopped
  | .running left => .running (left - 1)

/-- The timer has expired and its expiry is still to be taken. -/
def MsTimer.due (t : MsTimer) : Bool := decide (t = .running 0)

/-! ### Ordered lists -/

/-- `x` placed behind the leading members that go ahead of it, and ahead of the rest (R39, R113). -/
def insertBehind {α : Type} (ahead : α → Bool) (x : α) (l : List α) : List α :=
  l.takeWhile ahead ++ x :: l.dropWhile ahead

/-- The list with its first member that satisfies `p` changed by `f`. -/
def updateFirst {α : Type} (p : α → Bool) (f : α → α) : List α → List α
  | [] => []
  | x :: rest => if p x then f x :: rest else x :: updateFirst p f rest

/-- All units of one kind, in ascending number. -/
def allOf (n : Nat) : List (Fin n) := List.finRange n

/-! ### Byte order and check value (R164, R165) -/

/-- A small number as one byte. -/
def byteOf (n : Nat) : Byte := BitVec.ofNat 8 n

/-- A two-byte field, high byte first (R164). -/
def be16 (h : Half) : List Byte := [h.extractLsb' 8 8, h.extractLsb' 0 8]

/-- A four-byte field, high byte first (R164). -/
def be32 (t : Time) : List Byte :=
  [t.extractLsb' 24 8, t.extractLsb' 16 8, t.extractLsb' 8 8, t.extractLsb' 0 8]

/-- A two-byte field read high byte first (R168). -/
def half (high low : Byte) : Half := high ++ low

/-- One step of the check register (R165). -/
def crcShift (r : Half) : Half := if r.msb then (r <<< 1) ^^^ Config.crcPolynomial else r <<< 1

/-- `n` steps of the check register. -/
def crcShifts : Nat → Half → Half
  | 0, r => r
  | n + 1, r => crcShifts n (crcShift r)

/-- The check register after one covered byte (R165). -/
def crcByte (r : Half) (b : Byte) : Half := crcShifts 8 (r ^^^ (b ++ 0#8))

/-- The check value of the covered bytes (R165). -/
def crc16 (bytes : List Byte) : Half := bytes.foldl crcByte Config.crcInitial

/-- The bytes of a frame that its check value covers: kind, tag, length and body (R165). -/
def Frame.covered (f : Frame) : List Byte := f.kind :: f.tag :: byteOf f.body.length :: f.body

/-- The bytes of a frame on the line (R164). -/
def Frame.bytes (f : Frame) : List Byte := Config.sync :: f.covered ++ be16 (crc16 f.covered)

/-! ### One block of the state replaced -/

/-- The state with another TBU. -/
def State.withTbu (s : State) (x : Tbu) : State := { s with tbu := x }

/-- The state with another SCU. -/
def State.withScu (s : State) (x : Scu) : State := { s with scu := x }

/-- The state with another RTU. -/
def State.withRtu (s : State) (x : Rtu) : State := { s with rtu := x }

/-- The state with another ALD. -/
def State.withAld (s : State) (x : Ald) : State := { s with ald := x }

/-- The state with another NQ. -/
def State.withNq (s : State) (x : Nq) : State := { s with nq := x }

/-- The state with another GAR. -/
def State.withGar (s : State) (x : Gar) : State := { s with gar := x }

/-- The state with another MLK. -/
def State.withMlk (s : State) (x : Mlk) : State := { s with mlk := x }

/-- The state with another queue of commands. -/
def State.withPending (s : State) (x : List Instr) : State := { s with pending := x }

/-- The present value of the hub clock (R2). -/
def State.now (s : State) : Time := s.tbu.hubClock

end Sys2Proof.Machine
end

