-- ==== Sys2Proof/Machine/Operands.lean ====
section
/-! DEFINITION. The fields of messages: the codes of R166, R168 and R170, the bodies of requests with their length and range
checks (R167 to R169), and the bodies of notices (R171). -/

namespace Sys2Proof.Machine

/-! ### Codes sent by the part (R168) -/

/-- A flag: 0 clear, off or closed; 1 set, on or open. -/
def flagCode (b : Bool) : Byte := if b then 1 else 0

def Level.code : Level → Byte
  | .low => 0
  | .high => 1

def Accepted.code : Accepted → Byte
  | .known l => Level.code l
  | .unknown => 2

def Target.code : Target → Byte
  | .line l => byteOf l.val
  | .reportOnly => 8

def SourceClass.code : SourceClass → Byte
  | .exclusive => 0
  | .shared => 1

def Sense.code : Sense → Byte
  | .levelHigh => 0
  | .levelLow => 1
  | .rise => 2
  | .fall => 3
  | .both => 4

def SourceStatus.code : SourceStatus → Byte
  | .unbound => 0
  | .idle => 1
  | .pending => 2

def LineMode.code : LineMode → Byte
  | .level => 0
  | .pulse => 1

def Polarity.code : Polarity → Byte
  | .activeLow => 0
  | .activeHigh => 1

def Drive.code : Drive → Byte
  | .pushPull => 0
  | .openDrain => 1

def LinePhase.code : LinePhase → Byte
  | .quiet => 0
  | .pulse _ => 1
  | .gap _ => 2

def LineOutput.code : LineOutput → Byte
  | .off => 0
  | .released => 1
  | .asserted => 2

def Policy.code : Policy → Byte
  | .arrival => 0
  | .priority => 1

def RequesterState.code : RequesterState → Byte
  | .detached => 0
  | .idle => 1
  | .waiting _ _ => 2
  | .granted _ _ => 3
  | .blocked _ => 4

/-- The block reason of a requester: NONE in every state but BLOCKED (R95). -/
def RequesterState.blockCode : RequesterState → Byte
  | .blocked .timeout => 1
  | .blocked .revoked => 2
  | .blocked .reset => 3
  | .detached | .idle | .waiting _ _ | .granted _ _ => 0

def ChannelPhase.code : ChannelPhase → Byte
  | .idle => 0
  | .held _ => 1
  | .settling _ => 2

/-- The holder field: 0xFF with no holder (R106, R110). -/
def ChannelPhase.holderCode : ChannelPhase → Byte
  | .held q => byteOf q.val
  | .idle | .settling _ => 0xFF

def LinkState.code : LinkState → Byte
  | .running => 0
  | .stalled => 1

def StartCause.code : StartCause → Byte
  | .powerOn => 0
  | .resetLine => 1

def GrantWhat.code : GrantWhat → Byte
  | .granted => 0
  | .ended => 1
  | .timeout => 2
  | .revoked => 3

def EndReason.code : EndReason → Byte
  | .none => 0
  | .released => 1
  | .quota => 2

/-- A result code (R141). -/
inductive Result where
  | ok
  | badKind
  | badLength
  | range
  | bound
  | notBound
  | conflict
  | busy
  | notPending
  | noHolder
deriving DecidableEq, Repr

/-- The byte of a result code; code 9 is not issued (R141, R170). -/
def Result.code : Result → Byte
  | .ok => 0
  | .badKind => 1
  | .badLength => 2
  | .range => 3
  | .bound => 4
  | .notBound => 5
  | .conflict => 6
  | .busy => 7
  | .notPending => 8
  | .noHolder => 10

/-! ### Kinds (R166, R169) -/

/-- The sixteen request kinds (R169). -/
inductive RequestKind where
  | status
  | bind
  | unbind
  | sourceQuery
  | mask
  | service
  | pendingList
  | lineSet
  | lineQuery
  | channelSet
  | assign
  | channelQuery
  | revoke
  | noticeAck
  | linkSet
  | resync
deriving DecidableEq, Repr

/-- The kind byte of a request (R169). -/
def RequestKind.code : RequestKind → Byte
  | .status => 0x10
  | .bind => 0x11
  | .unbind => 0x12
  | .sourceQuery => 0x13
  | .mask => 0x14
  | .service => 0x15
  | .pendingList => 0x16
  | .lineSet => 0x17
  | .lineQuery => 0x18
  | .channelSet => 0x19
  | .assign => 0x1A
  | .channelQuery => 0x1B
  | .revoke => 0x1C
  | .noticeAck => 0x1D
  | .linkSet => 0x1E
  | .resync => 0x1F

/-- A kind byte in the range of the requests, 0x10 to 0x1F (R139, R166). -/
def isRequestKind (kind : Byte) : Bool := decide (0x10 ≤ kind.toNat) && decide (kind.toNat ≤ 0x1F)

/-- The kind byte of a reply is 0x80 above the kind of its request (R133). -/
def replyKind (kind : Byte) : Byte := kind + 0x80

/-! ### Fields of a request, each with its range (R168, R169) -/

/-- A number of a unit: out of range when there is no such unit. -/
def unitNumber (n : Nat) (b : Byte) : Option (Fin n) := if h : b.toNat < n then some ⟨b.toNat, h⟩ else none

def flagField (b : Byte) : Option Bool := if b = 0 then some false else if b = 1 then some true else none

def targetField (b : Byte) : Option Target :=
  if b = 8 then some .reportOnly else (unitNumber 8 b).map .line

def classField (b : Byte) : Option SourceClass :=
  if b = 0 then some .exclusive else if b = 1 then some .shared else none

def senseField (b : Byte) : Option Sense :=
  if b = 0 then some .levelHigh
  else if b = 1 then some .levelLow
  else if b = 2 then some .rise
  else if b = 3 then some .fall
  else if b = 4 then some .both
  else none

def modeField (b : Byte) : Option LineMode := if b = 0 then some .level else if b = 1 then some .pulse else none

def polarityField (b : Byte) : Option Polarity :=
  if b = 0 then some .activeLow else if b = 1 then some .activeHigh else none

def driveField (b : Byte) : Option Drive :=
  if b = 0 then some .pushPull else if b = 1 then some .openDrain else none

def policyField (b : Byte) : Option Policy := if b = 0 then some .arrival else if b = 1 then some .priority else none

/-- The channel field of ASSIGN: 0xFF is none (R107). -/
def assignedField (b : Byte) : Option (Option Channel) :=
  if b = 0xFF then some none else (unitNumber 4 b).map some

def rateField (b : Byte) : Option RateCode :=
  if b = 0 then some .r57600
  else if b = 1 then some .r115200
  else if b = 2 then some .r230400
  else if b = 3 then some .r460800
  else if b = 4 then some .r921600
  else none

/-- A byte that must lie between two bounds. -/
def boundedField (low high : Nat) (b : Byte) : Option Byte :=
  if low ≤ b.toNat ∧ b.toNat ≤ high then some b else none

/-! ### Bodies of requests (R167 to R169)

Each reader answers BAD_LENGTH for a body of the wrong length, RANGE for a field out of its range, and else the fields. -/

/-- The fields that are all in range, or RANGE. -/
def orRange {α : Type} (fields : Option α) : Except Result α :=
  match fields with
  | some a => .ok a
  | none => .error .range

/-- The body of a request with one field. -/
def oneField {α : Type} (field : Byte → Option α) (body : List Byte) : Except Result α :=
  match body with
  | [b] => orRange (field b)
  | _ => .error .badLength

/-- The fields of BIND. -/
structure BindFields where
  source : Source
  target : Target
  cls : SourceClass
  priority : Priority
  sense : Sense
  filter : Byte
  report : Bool
deriving DecidableEq, Repr

/-- The body of BIND, with the ranges of R24. -/
def readBind (body : List Byte) : Except Result BindFields :=
  match body with
  | [source, target, cls, priority, sense, filter, report] => orRange do
      let source ← unitNumber 30 source
      let target ← targetField target
      let cls ← classField cls
      let priority ← unitNumber 4 priority
      let sense ← senseField sense
      let report ← flagField report
      if target = .reportOnly ∧ report = false then none
      else some { source, target, cls, priority, sense, filter, report }
  | _ => .error .badLength

/-- The body of MASK (R52): the source, and whether the mask is to be on. -/
def readMask (body : List Byte) : Except Result (Source × Bool) :=
  match body with
  | [source, value] => orRange do
      let source ← unitNumber 30 source
      let on ← flagField value
      some (source, on)
  | _ => .error .badLength

/-- The body of LINE_SET, with the ranges of R70. -/
def readLineSet (body : List Byte) : Except Result (Line × LineSettings) :=
  match body with
  | [line, enable, mode, polarity, drive, width, gap] => orRange do
      let line ← unitNumber 8 line
      let enable ← flagField enable
      let mode ← modeField mode
      let polarity ← polarityField polarity
      let drive ← driveField drive
      let width ← boundedField 1 255 width
      let gap ← boundedField 1 255 gap
      if drive = .openDrain ∧ polarity = .activeHigh then none
      else some (line, { enable, mode, polarity, drive, width, gap })
  | _ => .error .badLength

/-- The body of CHANNEL_SET, with the ranges of R104. -/
def readChannelSet (body : List Byte) : Except Result (Channel × ChannelSettings) :=
  match body with
  | [channel, isOpen, quota, policy, holdHigh, holdLow, settle, age, report] => orRange do
      let channel ← unitNumber 4 channel
      let isOpen ← flagField isOpen
      let policy ← policyField policy
      let settleLimit ← boundedField 1 255 settle
      let ageLimit ← boundedField 0 15 age
      let reportGrants ← flagField report
      some (channel, { isOpen, quota, policy, holdLimit := half holdHigh holdLow, settleLimit, ageLimit, reportGrants })
  | _ => .error .badLength

/-- The fields of ASSIGN. -/
structure AssignFields where
  requester : Requester
  channel : Option Channel
  priority : Priority
deriving DecidableEq, Repr

/-- The body of ASSIGN, with the ranges of R107. -/
def readAssign (body : List Byte) : Except Result AssignFields :=
  match body with
  | [requester, channel, priority] => orRange do
      let requester ← unitNumber 12 requester
      let channel ← assignedField channel
      let priority ← unitNumber 4 priority
      some { requester, channel, priority }
  | _ => .error .badLength

/-- The body of NOTICE_ACK: the numbers named. A count of 0 or above 4, and a length other than one plus the count, are
length failures (R159). -/
def readNoticeAck (body : List Byte) : Except Result (List Byte) :=
  match body with
  | [] => .error .badLength
  | count :: numbers =>
      if 1 ≤ count.toNat ∧ count.toNat ≤ 4 ∧ numbers.length = count.toNat then .ok numbers else .error .badLength

/-- The body of LINK_SET, with the ranges of R147. -/
def readLinkSet (body : List Byte) : Except Result LinkSettings :=
  match body with
  | [rate, window, interval, retryLimit] => orRange do
      let rate ← rateField rate
      let window ← boundedField 1 4 window
      let interval ← boundedField 1 255 interval
      let retryLimit ← boundedField 1 15 retryLimit
      some { rate, window, interval, retryLimit }
  | _ => .error .badLength

/-! ### Bodies of notices (R171) -/

/-- The kind byte of a notice (R166). -/
def NoticeBody.kind : NoticeBody → Byte
  | .start _ _ _ _ => 0x40
  | .sourceEvent _ _ _ _ => 0x41
  | .grantEvent _ => 0x42
  | .loss _ _ => 0x43

/-- The body bytes of a notice (R171). -/
def NoticeBody.fields : NoticeBody → List Byte
  | .start cause device revision time => [cause.code, device, revision] ++ be32 time
  | .sourceEvent source count level time => [byteOf source.val, count, Level.code level] ++ be32 time
  | .grantEvent e =>
      [byteOf e.channel.val, byteOf e.requester.val, e.what.code, e.reason.code, e.units] ++ be16 e.duration
        ++ be32 e.time
  | .loss count time => be16 count ++ be32 time

/-- The notice frame of an entry under a notice number (R171). -/
def NoticeBody.frame (b : NoticeBody) (number : Byte) : Frame := { kind := b.kind, tag := number, body := b.fields }

end Sys2Proof.Machine
end

