-- ==== Sys2Proof/Machine/Queue.lean ====
section
/-! DEFINITION. The Notice Queue: posting, loss, carry, removal, withdrawal and the merge of RESYNC (05, R162). -/

namespace Sys2Proof.Machine

/-! ### Reading entries -/

/-- The entry is UNSENT. -/
def Entry.isUnsent (e : Entry) : Bool := decide (e.delivery = .unsent)

/-- The entry is IN_FLIGHT with this notice number. -/
def Entry.hasNumber (number : Byte) (e : Entry) : Bool := decide (e.delivery = .inFlight number)

/-- The notice number of an IN_FLIGHT entry. -/
def Entry.number (e : Entry) : Option Byte :=
  match e.delivery with
  | .inFlight n => some n
  | .unsent => none

/-- The source of a SOURCE_EVENT entry. -/
def Entry.source (e : Entry) : Option Source :=
  match e.body with
  | .sourceEvent source _ _ _ => some source
  | .start _ _ _ _ | .grantEvent _ | .loss _ _ => none

/-- The entry is a LOSS entry. -/
def Entry.isLoss (e : Entry) : Bool :=
  match e.body with
  | .loss _ _ => true
  | .start _ _ _ _ | .sourceEvent _ _ _ _ | .grantEvent _ => false

/-- The entry is an UNSENT SOURCE_EVENT entry of this source. -/
def Entry.isUnsentOf (source : Source) (e : Entry) : Bool := e.isUnsent && decide (e.source = some source)

/-- The entry is an UNSENT LOSS entry. -/
def Entry.isUnsentLoss (e : Entry) : Bool := e.isUnsent && e.isLoss

/-- The numbers of the IN_FLIGHT entries, in queue order. -/
def Nq.inFlight (n : Nq) : List Byte := n.queue.filterMap Entry.number

/-- The IN_FLIGHT count (R94). -/
def Nq.inFlightCount (n : Nq) : Nat := n.inFlight.length

/-- The UNSENT count (R94). -/
def Nq.unsentCount (n : Nq) : Nat := (n.queue.filter Entry.isUnsent).length

/-- A notice loss is outstanding: the loss count is above 0 or a LOSS entry is in the queue (R14). -/
def Nq.lossOutstanding (n : Nq) : Bool := decide (0 < n.lossCount.toNat) || n.queue.any Entry.isLoss

/-! ### Changing entries -/

/-- Occurrences added to a SOURCE_EVENT entry, saturating at 255; its level and time are kept (R83, R162). -/
def Entry.addOccurrences (count : Byte) (e : Entry) : Entry :=
  match e.body with
  | .sourceEvent source c level time => { e with body := .sourceEvent source (satAdd c count) level time }
  | .start _ _ _ _ | .grantEvent _ | .loss _ _ => e

/-- Losses added to a LOSS entry, saturating at 65535; its time is kept (R86, R87, R162). -/
def Entry.addLosses (count : Half) (e : Entry) : Entry :=
  match e.body with
  | .loss c time => { e with body := .loss (satAdd c count) time }
  | .start _ _ _ _ | .sourceEvent _ _ _ _ | .grantEvent _ => e

/-! ### Posting (R83 to R86) -/

/-- A new entry, UNSENT, at the tail (R76, R77). -/
def Nq.append (n : Nq) (body : NoticeBody) : Nq := { n with queue := n.queue ++ [{ body := body, delivery := .unsent }] }

/-- A post that cannot be taken is recorded as one loss (R86). -/
def Nq.recordLoss (n : Nq) (now : Time) : Nq :=
  if n.queue.any Entry.isUnsentLoss then
    { n with queue := updateFirst Entry.isUnsentLoss (Entry.addLosses 1) n.queue }
  else
    { n with
      lossCount := satInc n.lossCount
      firstLossTime := if n.lossCount = 0 then some now else n.firstLossTime }

/-- A SOURCE_EVENT post is coalesced, appended or lost (R83). -/
def Nq.takeSource (n : Nq) (now : Time) (p : SourcePost) : Nq :=
  if n.queue.any (Entry.isUnsentOf p.source) then
    { n with queue := updateFirst (Entry.isUnsentOf p.source) (Entry.addOccurrences 1) n.queue }
  else if n.queue.length < Config.queueCapacity then n.append (.sourceEvent p.source 1 p.level p.time)
  else n.recordLoss now

/-- A GRANT_EVENT post is appended or lost (R84). -/
def Nq.takeGrant (n : Nq) (now : Time) (e : GrantEvent) : Nq :=
  if n.queue.length < Config.queueCapacity then n.append (.grantEvent e) else n.recordLoss now

/-- One post taken by the queue. -/
def Nq.takePost (n : Nq) (now : Time) : Post → Nq
  | .source p => n.takeSource now p
  | .grant e => n.takeGrant now e

/-- Posts handed to the NQ (05 section 5.3). -/
def Nq.hand (n : Nq) (posts : List Post) : Nq := { n with posts := n.posts ++ posts }

/-! ### Leaving (R87, R89, R90) -/

/-- The carry of a loss count above 0 when an entry leaves (R87). -/
def Nq.carry (n : Nq) : Nq :=
  if n.lossCount = 0 then n
  else
    let carried :=
      if n.queue.any Entry.isUnsentLoss then
        { n with queue := updateFirst Entry.isUnsentLoss (Entry.addLosses n.lossCount) n.queue }
      else n.append (.loss n.lossCount (n.firstLossTime.getD 0))
    { carried with lossCount := 0, firstLossTime := none }

/-- The removal of the first entry that satisfies `p`, with the carry; nothing when there is none. -/
def Nq.removeFirst (n : Nq) (p : Entry → Bool) : Nq :=
  if n.queue.any p then Nq.carry { n with queue := n.queue.eraseP p } else n

/-- The removal of the IN_FLIGHT entry with this number (R89). -/
def Nq.acknowledge (n : Nq) (number : Byte) : Nq := n.removeFirst (Entry.hasNumber number)

/-- The number of UNSENT SOURCE_EVENT entries of a source that a withdrawal removes, 0 or 1 (R90). -/
def Nq.withdrawals (n : Nq) (source : Source) : Nat := if n.queue.any (Entry.isUnsentOf source) then 1 else 0

/-- The withdrawal of a source's UNSENT SOURCE_EVENT entry (R90). -/
def Nq.withdraw (n : Nq) (source : Source) : Nq := n.removeFirst (Entry.isUnsentOf source)

/-! ### RESYNC (R162) -/

/-- One more entry of the reverted queue: merged into the first entry of its source, or into the first LOSS entry, when
there is one, and else kept behind the entries before it. -/
def mergeEntry (kept : List Entry) (e : Entry) : List Entry :=
  match e.body with
  | .sourceEvent source count _ _ =>
      if kept.any (Entry.isUnsentOf source) then
        updateFirst (Entry.isUnsentOf source) (Entry.addOccurrences count) kept
      else kept ++ [e]
  | .loss count _ =>
      if kept.any Entry.isUnsentLoss then updateFirst Entry.isUnsentLoss (Entry.addLosses count) kept
      else kept ++ [e]
  | .start _ _ _ _ | .grantEvent _ => kept ++ [e]

/-- Every entry UNSENT where it stands, without a number (R162 step 2). -/
def revertAll (queue : List Entry) : List Entry := queue.map fun e => { e with delivery := .unsent }

/-- The reverted queue with later entries merged into earlier ones (R162 step 3). -/
def mergeAll (queue : List Entry) : List Entry := (revertAll queue).foldl mergeEntry []

/-- The queue part of RESYNC: revert and merge, with the carry when an entry has left by merge (R162, R87). -/
def Nq.resync (n : Nq) : Nq :=
  if (mergeAll n.queue).length < n.queue.length then Nq.carry { n with queue := mergeAll n.queue }
  else { n with queue := mergeAll n.queue }

end Sys2Proof.Machine
end

