-- ==== Sys2Proof/Machine/Flags.lean ====
section
/-! DEFINITION. The conditions the part computes from its state: whether events are taken, what a sense code selects, the
internal conditions S24 to S29, the output of a line, the notice sender's claim, and the levels of the output pins. -/

namespace Sys2Proof.Machine

/-- Events are taken: the part is out of reset and the reference clock runs (R172, R173). -/
def State.live (s : State) : Bool := decide (s.tbu.mode = .running) && s.tbu.refclk

/-- What an event makes of the state, or the state as it is while no event is taken (R172, R173; log 4). -/
def State.whenLive (s t : State) : State := if s.live then t else s

/-! ### Sense codes (R9, R10) -/

/-- The level a level-sensed code selects. -/
def Sense.activeLevel : Sense → Option Level
  | .levelHigh => some .high
  | .levelLow => some .low
  | .rise | .fall | .both => none

/-- A level-sensed code (R9). -/
def Sense.isLevel (sense : Sense) : Bool := sense.activeLevel.isSome

/-- A report from the previous level to the new one is an event under the sense (R9). -/
def Sense.isEvent (sense : Sense) (previous : Accepted) (new : Level) : Bool :=
  match sense with
  | .levelHigh => decide (new = .high)
  | .levelLow => decide (new = .low)
  | .rise => decide (previous = .known .low ∧ new = .high)
  | .fall => decide (previous = .known .high ∧ new = .low)
  | .both => decide ((previous = .known .low ∧ new = .high) ∨ (previous = .known .high ∧ new = .low))

/-- A source with this sense and accepted level is active (R10). -/
def Sense.active (sense : Sense) (level : Accepted) : Bool :=
  match level with
  | .known l => decide (sense.activeLevel = some l)
  | .unknown => false

/-! ### Sources -/

/-- An external source's number among S0 to S29. -/
def External.toSource (e : External) : Source := ⟨e.val, by omega⟩

/-- An internal source's number among S0 to S29. -/
def Internal.toSource (i : Internal) : Source := ⟨24 + i.val, by omega⟩

/-- The accepted level the SCU keeps for a source (R10, R11). -/
def Scu.level (c : Scu) (source : Source) : Accepted :=
  if h : source.val < 24 then (c.conditioners.read ⟨source.val, h⟩).accepted
  else .known (c.internal.read ⟨source.val - 24, by omega⟩)

/-! ### The internal conditions (R13 to R15) -/

/-- The requester is BLOCKED. -/
def RequesterRecord.isBlocked (r : RequesterRecord) : Bool :=
  match r.state with
  | .blocked _ => true
  | .detached | .idle | .waiting _ _ | .granted _ _ => false

/-- A requester assigned to the channel is BLOCKED (R13). -/
def Gar.hasBlocked (g : Gar) (c : Channel) : Bool :=
  (allOf 12).any fun q => decide ((g.requesters.read q).assigned = some c) && (g.requesters.read q).isBlocked

/-- The condition of an internal source: S24 to S27 (R13), S28 (R14), S29 (R15). -/
def State.condition (s : State) (i : Internal) : Bool :=
  if h : i.val < 4 then s.gar.hasBlocked ⟨i.val, h⟩
  else if i.val = 4 then s.nq.lossOutstanding
  else decide (s.mlk.sender.link = .stalled)

/-- The level of an internal source is HIGH while its condition is true (01 section 1.7). -/
def State.conditionLevel (s : State) (i : Internal) : Level := if s.condition i then .high else .low

/-! ### The output of a line (R60, R61, R71) -/

/-- The output state of a line in phase QUIET, from its settings and the occupancy of its set (R71 step 3). -/
def LineSettings.restingOutput (l : LineSettings) (nonempty : Bool) : LineOutput :=
  if l.enable then
    match l.mode with
    | .level => if nonempty then .asserted else .released
    | .pulse => .released
  else .off

/-- The pending set of a line is nonempty (R38). -/
def Rtu.nonempty (r : Rtu) (l : Line) : Bool := !(r.sets.read l).isEmpty

/-! ### The notice sender's claim (R152) -/

/-- The notice sender claims the transmitter. -/
def State.noticeClaim (s : State) : Bool :=
  decide (s.mlk.sender.link = .running) &&
    (!s.mlk.sender.roundList.isEmpty ||
      (decide (s.nq.inFlightCount < s.mlk.settings.window.toNat) && s.nq.queue.any Entry.isUnsent))

/-! ### Output pins -/

/-- What the part does to an attention pin (R60). -/
inductive LinePin where
  | highImpedance
  | driven (level : Level)
deriving DecidableEq, Repr

/-- The pin of an attention line, from its output state, polarity and drive (R60). The pair OPEN_DRAIN with ACTIVE_HIGH is
no valid setting (R59); an open-drain output can only pull low. -/
def LineRecord.pin (l : LineRecord) : LinePin :=
  match l.output, l.settings.drive, l.settings.polarity with
  | .off, _, _ => .highImpedance
  | .released, .pushPull, .activeLow => .driven .high
  | .released, .pushPull, .activeHigh => .driven .low
  | .released, .openDrain, _ => .highImpedance
  | .asserted, .pushPull, .activeLow => .driven .low
  | .asserted, .pushPull, .activeHigh => .driven .high
  | .asserted, .openDrain, _ => .driven .low

/-- The pin of attention line `l`. -/
def State.linePin (s : State) (l : Line) : LinePin := (s.ald.lines.read l).pin

/-- The GNT pin of a requester: high while it is the holder of its assigned channel (R100). -/
def Gar.gnt (g : Gar) (q : Requester) : Level :=
  match (g.requesters.read q).assigned with
  | some c => if (g.channels.read c).phase = .held q then .high else .low
  | none => .low

/-- The GNT pin of a requester. -/
def State.gnt (s : State) (q : Requester) : Level := s.gar.gnt q

/-- The frame being sent on TXD; none when the line is at mark (R144). -/
def State.txFrame (s : State) : Option Frame :=
  match s.mlk.tx with
  | .idle => none
  | .reply => (s.mlk.replies.head?).map Reply.frame
  | .notice f => some f

end Sys2Proof.Machine
end

