-- ==== Sys2Proof/Machine/Routing.lean ====
section
/-! DEFINITION. The SCU's filter and reports, and the RTU's pending sets and source events (01, 02, 03). -/

namespace Sys2Proof.Machine

/-! ### The stability filter (R5, R6, R7) -/

/-- The run length after a sample, before it is compared with the filter length (R5, R6). -/
def Conditioner.nextRun (c : Conditioner) (sample : Level) : Nat :=
  match c.accepted with
  | .known accepted => if sample = accepted then 0 else c.runLength + 1
  | .unknown => if c.lastSample = some sample then c.runLength + 1 else 1

/-- The sample completes a run of f+1 samples (R5, R6). -/
def Conditioner.accepts (c : Conditioner) (filter : Byte) (sample : Level) : Bool :=
  decide (filter.toNat + 1 ≤ c.nextRun sample)

/-- The record after a sample (R4 to R6). -/
def Conditioner.take (c : Conditioner) (filter : Byte) (sample : Level) : Conditioner :=
  if c.accepts filter sample then { lastSample := some sample, accepted := .known sample, runLength := 0 }
  else { c with lastSample := some sample, runLength := c.nextRun sample }

/-- The SCU after the filter length in use of a source went from one value to another: a different value sets the run
length of an external source to 0 (R7). -/
def Scu.changeFilter (c : Scu) (source : Source) (before after : Byte) : Scu :=
  if h : source.val < 24 then
    if before = after then c
    else
      { c with conditioners :=
          c.conditioners.write ⟨source.val, h⟩ { c.conditioners.read ⟨source.val, h⟩ with runLength := 0 } }
  else c

/-! ### Records and pending sets (R17, R38, R39) -/

/-- What the RTU hands to other blocks in one event, with its own new state: triggers to the ALD (R40) and SOURCE_EVENT
posts to the NQ (R44). -/
structure RtuStep where
  rtu : Rtu
  triggers : List Trigger
  posts : List SourcePost
deriving DecidableEq, Repr

/-- An event that hands nothing. -/
def RtuStep.quiet (r : Rtu) : RtuStep := { rtu := r, triggers := [], posts := [] }

/-- One event after another at the RTU. -/
def RtuStep.andThen (x : RtuStep) (f : Rtu → RtuStep) : RtuStep :=
  { rtu := (f x.rtu).rtu, triggers := x.triggers ++ (f x.rtu).triggers, posts := x.posts ++ (f x.rtu).posts }

/-- The binding record of a source. -/
def Rtu.record (r : Rtu) (source : Source) : BindingRecord := r.records.read source

/-- The record of a source replaced. -/
def Rtu.setRecord (r : Rtu) (source : Source) (x : BindingRecord) : Rtu :=
  { r with records := r.records.write source x }

/-- The record is bound: its status is not UNBOUND (R17). -/
def BindingRecord.isBound (x : BindingRecord) : Bool := decide (x.status ≠ .unbound)

/-- The source is bound and its target is the line: one of the line's bindings (R19). -/
def BindingRecord.boundTo (x : BindingRecord) (l : Line) : Bool := x.isBound && decide (x.target = .line l)

/-- In a pending set, `m` stays ahead of a joining source: its priority is not higher-numbered (R39). -/
def Rtu.staysAhead (r : Rtu) (source m : Source) : Bool := decide ((r.record m).priority ≤ (r.record source).priority)

/-- A join: the tail of the source's own band, and status PENDING (R39). -/
def Rtu.join (r : Rtu) (source : Source) (l : Line) : Rtu :=
  { r with
    sets := r.sets.write l (insertBehind (r.staysAhead source) source (r.sets.read l))
    records := r.records.write source { r.record source with status := .pending } }

/-- A leave: the source is removed from the set and becomes IDLE (R39). -/
def Rtu.leave (r : Rtu) (source : Source) (l : Line) : Rtu :=
  { r with
    sets := r.sets.write l ((r.sets.read l).erase source)
    records := r.records.write source { r.record source with status := .idle } }

/-- A join with the join trigger that goes with it (R40). -/
def Rtu.joinWithTrigger (r : Rtu) (source : Source) (l : Line) : RtuStep :=
  { rtu := r.join source l, triggers := [{ kind := .join, line := l }], posts := [] }

/-- The place of a source in its line's pending set, from 1, when PENDING, and 0 otherwise (R35). -/
def Rtu.position (r : Rtu) (source : Source) : Nat :=
  match (r.record source).status, (r.record source).target with
  | .pending, .line l => (r.sets.read l).idxOf source + 1
  | .pending, .reportOnly => 0
  | .idle, _ => 0
  | .unbound, _ => 0

/-- The join order of a source: its place among the members of its band, or none (R17, R20). -/
def Rtu.joinOrder (r : Rtu) (source : Source) : Option Nat :=
  match (r.record source).status, (r.record source).target with
  | .pending, .line l =>
      some (((r.sets.read l).filter fun m => decide ((r.record m).priority = (r.record source).priority)).idxOf source)
  | .pending, .reportOnly => none
  | .idle, _ => none
  | .unbound, _ => none

/-! ### Source events (R41 to R46) -/

/-- An event of a source (R41 to R45). -/
def Rtu.event (r : Rtu) (p : SourcePost) : RtuStep :=
  let x := r.record p.source
  let posts := if x.report then [p] else []
  if !x.isBound then RtuStep.quiet r
  else if x.mask then RtuStep.quiet (r.setRecord p.source { x with held := true })
  else
    match x.target with
    | .reportOnly => { RtuStep.quiet r with posts := posts }
    | .line l =>
        match x.status with
        | .pending => { RtuStep.quiet (r.setRecord p.source { x with again := true }) with posts := posts }
        | .idle | .unbound => { r.joinWithTrigger p.source l with posts := posts }

/-- The RTU judges a report against the sense of a bound source (R8, R9, R46). -/
def Rtu.takeReport (r : Rtu) (rep : LevelReport) : RtuStep :=
  if (r.record rep.source).isBound && (r.record rep.source).sense.isEvent rep.previous rep.new then
    r.event { source := rep.source, level := rep.new, time := rep.time }
  else RtuStep.quiet r

/-- The oldest report of a source is taken (R8). -/
def Rtu.takeOldestReport (r : Rtu) (source : Source) : RtuStep :=
  match r.reports.find? (fun rep => decide (rep.source = source)) with
  | some rep => Rtu.takeReport { r with reports := r.reports.eraseP fun x => decide (x.source = source) } rep
  | none => RtuStep.quiet r

/-- Every report of a source that the SCU has made and the RTU has not taken is taken, in order. A request that reads the
accepted level of a source for an activity check is preceded by this: R10 lets it see the level of a sample already taken,
and R28 and R51 count the change of that sample as one event (log 8). -/
def Rtu.takeReportsOf (r : Rtu) (source : Source) : RtuStep :=
  (r.reports.filter fun rep => decide (rep.source = source)).foldl (fun x rep => x.andThen fun r => r.takeReport rep)
    (RtuStep.quiet { r with reports := r.reports.filter fun rep => !decide (rep.source = source) })

/-- The reports of a source are taken first when the request reads its accepted level for an activity check (log 8). -/
def Rtu.takeReportsIf (r : Rtu) (reads : Bool) (source : Source) : RtuStep :=
  if reads then r.takeReportsOf source else RtuStep.quiet r

/-! ### The class check (R25) -/

/-- A target admits a class: a line with an EXCLUSIVE binding admits none, and one with bindings admits no EXCLUSIVE. -/
def Rtu.admits (r : Rtu) (target : Target) (cls : SourceClass) : Bool :=
  match target with
  | .reportOnly => true
  | .line l =>
      match cls with
      | .exclusive => !(allOf 30).any fun m => (r.record m).boundTo l
      | .shared => !(allOf 30).any fun m => (r.record m).boundTo l && decide ((r.record m).cls = .exclusive)

/-! ### What an event at the RTU does to the state -/

/-- The lines whose set changed between empty and nonempty (R61). -/
def Rtu.occupancyChanges (before after : Rtu) : List Line :=
  (allOf 8).filter fun l => !decide (before.nonempty l = after.nonempty l)

/-- The state after an event at the RTU: triggers and occupancy changes go to the ALD, and posts to the NQ, where each is
taken as an event of its own (R40, R41, R61). -/
def State.applyRtu (s : State) (x : RtuStep) : State :=
  { s with
    rtu := x.rtu
    ald := { s.ald with
      triggers := s.ald.triggers ++ x.triggers
      occupancy := s.ald.occupancy ++ s.rtu.occupancyChanges x.rtu }
    nq := s.nq.hand (x.posts.map Post.source) }

/-! ### The internal sources (R12) -/

/-- The report of an internal source whose level has changed to the present level of its condition (R8, R12). -/
def State.internalReport (s : State) (i : Internal) : LevelReport :=
  { source := Internal.toSource i, new := s.conditionLevel i, previous := .known (s.scu.internal.read i), time := s.now }

/-- The SCU evaluates S24 to S29 after the whole event of the owning block, and reports each change (R12). -/
def State.evaluate (s : State) : State :=
  { s with
    scu := { s.scu with internal := Tbl.build s.conditionLevel }
    rtu := { s.rtu with reports := s.rtu.reports ++
      ((allOf 6).filter fun i => !decide (s.scu.internal.read i = s.conditionLevel i)).map s.internalReport } }

end Sys2Proof.Machine
end

