-- ==== Sys2Proof/Machine/LineDriver.lean ====
section
/-! DEFINITION. The Attention Line Driver: triggers, pulses, gaps, occupancy and settings of one line (04). -/

namespace Sys2Proof.Machine

/-- A join or reminder trigger taken by a line (R61, R63, R64, R69). -/
def LineRecord.trigger (l : LineRecord) : LineRecord :=
  if l.settings.enable && decide (l.settings.mode = .pulse) then
    match l.phase with
    | .quiet => { l with phase := .pulse l.settings.width, output := .asserted }
    | .pulse _ | .gap _ => { l with owed := true }
  else l

/-- The expiry of the width timer (R65). -/
def LineRecord.endPulse (l : LineRecord) : LineRecord :=
  match l.phase with
  | .pulse _ => { l with phase := .gap l.settings.gap, output := .released }
  | .quiet | .gap _ => l

/-- The expiry of the gap timer, with the occupancy of the set (R66). -/
def LineRecord.endGap (l : LineRecord) (nonempty : Bool) : LineRecord :=
  match l.phase with
  | .gap _ =>
      if l.owed && nonempty then { l with owed := false, phase := .pulse l.settings.width, output := .asserted }
      else { l with owed := false, phase := .quiet }
  | .quiet | .pulse _ => l

/-- The taking of a change of the set's occupancy, with the occupancy read (R61, R65, R69). -/
def LineRecord.occupancy (l : LineRecord) (nonempty : Bool) : LineRecord :=
  match l.settings.mode with
  | .level => { l with output := l.settings.restingOutput nonempty }
  | .pulse => l

/-- An accepted LINE_SET (R71): the settings are replaced, the timers are cancelled, the output is evaluated, and an
enabled PULSE-mode line with a nonempty set takes one trigger at once. -/
def LineRecord.set (settings : LineSettings) (nonempty : Bool) : LineRecord :=
  let fresh : LineRecord :=
    { settings := settings, phase := .quiet, owed := false, output := settings.restingOutput nonempty }
  if nonempty then fresh.trigger else fresh

/-- The working state of a line when RSTN is taken low: QUIET, nothing owed, and the output of the kept settings with an
empty set (R75). -/
def LineRecord.cleared (l : LineRecord) : LineRecord :=
  { l with phase := .quiet, owed := false, output := l.settings.restingOutput false }

/-- One line replaced by a function of it. -/
def Ald.update (a : Ald) (l : Line) (f : LineRecord → LineRecord) : Ald :=
  { a with lines := a.lines.write l (f (a.lines.read l)) }

/-- The ALD takes a trigger that was handed to it; nothing when none is waiting. -/
def Ald.takeTrigger (a : Ald) (t : Trigger) : Ald :=
  if t ∈ a.triggers then Ald.update { a with triggers := a.triggers.erase t } t.line LineRecord.trigger else a

/-- The ALD takes a change of occupancy of a line, reading the occupancy at that moment; nothing when none is waiting. -/
def Ald.takeOccupancy (a : Ald) (l : Line) (nonempty : Bool) : Ald :=
  if l ∈ a.occupancy then Ald.update { a with occupancy := a.occupancy.erase l } l fun x => x.occupancy nonempty else a

end Sys2Proof.Machine
end

