-- ==== Sys2Proof/Machine/Arbiter.lean ====
section
/-! DEFINITION. The Grant Arbiter: wait queues, aging, grants, ends of a grant, recoveries and the requester handshake
(06, 07). -/

namespace Sys2Proof.Machine

/-- What the GAR posts in one event, with its own new state (R129). -/
structure GarStep where
  gar : Gar
  events : List GrantEvent
deriving DecidableEq, Repr

/-- An event that posts nothing. -/
def GarStep.quiet (g : Gar) : GarStep := { gar := g, events := [] }

/-- One part of an event after another at the GAR. -/
def GarStep.andThen (x : GarStep) (f : Gar → GarStep) : GarStep :=
  { gar := (f x.gar).gar, events := x.events ++ (f x.gar).events }

/-- The record of a requester. -/
def Gar.requester (g : Gar) (q : Requester) : RequesterRecord := g.requesters.read q

/-- The record of a channel. -/
def Gar.channel (g : Gar) (c : Channel) : ChannelRecord := g.channels.read c

/-- The record of a requester replaced. -/
def Gar.setRequester (g : Gar) (q : Requester) (x : RequesterRecord) : Gar :=
  { g with requesters := g.requesters.write q x }

/-- The record of a channel replaced. -/
def Gar.setChannel (g : Gar) (c : Channel) (x : ChannelRecord) : Gar := { g with channels := g.channels.write c x }

/-- The state of a requester replaced. -/
def Gar.setState (g : Gar) (q : Requester) (x : RequesterState) : Gar :=
  g.setRequester q { g.requester q with state := x }

/-- Units completed in the present grant (R95). -/
def RequesterState.units : RequesterState → Byte
  | .granted units _ => units
  | .detached | .idle | .waiting _ _ | .blocked _ => 0

/-- The grant start time (R95). -/
def RequesterState.start : RequesterState → Time
  | .granted _ start => start
  | .detached | .idle | .waiting _ _ | .blocked _ => 0

/-- The promoted flag (R95). -/
def RequesterState.isPromoted : RequesterState → Bool
  | .waiting _ promoted => promoted
  | .detached | .idle | .granted _ _ | .blocked _ => false

/-- The pass count (R95). -/
def RequesterState.passes : RequesterState → Nat
  | .waiting passCount _ => passCount
  | .detached | .idle | .granted _ _ | .blocked _ => 0

/-! ### Wait queues (R113 to R116) -/

/-- In the wait queue of a channel, `m` stays ahead of a joining requester (R113). -/
def Gar.staysAhead (g : Gar) (c : Channel) (q m : Requester) : Bool :=
  match (g.channel c).settings.policy with
  | .arrival => true
  | .priority => (g.requester m).state.isPromoted || decide ((g.requester m).priority ≤ (g.requester q).priority)

/-- A join of a channel's wait queue: WAITING, pass count 0, promoted clear (R101, R108, R113, R121). -/
def Gar.enqueue (g : Gar) (c : Channel) (q : Requester) : Gar :=
  let queued := g.setChannel c
    { g.channel c with queue := insertBehind (g.staysAhead c q) q (g.channel c).queue }
  queued.setState q (.waiting 0 false)

/-- A requester leaves its wait queue for IDLE by withdrawal (R101, R114). -/
def Gar.withdraw (g : Gar) (c : Channel) (q : Requester) : Gar :=
  let left := g.setChannel c { g.channel c with queue := (g.channel c).queue.erase q }
  left.setState q .idle

/-- One pass of a waiting requester under an age limit (R115). -/
def RequesterState.pass (ageLimit : Nat) : RequesterState → RequesterState
  | .waiting passCount false => .waiting (passCount + 1) (decide (ageLimit ≤ passCount + 1))
  | .waiting passCount true => .waiting passCount true
  | .detached => .detached
  | .idle => .idle
  | .granted units start => .granted units start
  | .blocked reason => .blocked reason

/-- Pass counts raised and members promoted when a channel has granted its head (R115, R116): the members left in the
queue, first those promoted before, then those promoted now, then the rest. -/
def Gar.age (g : Gar) (c : Channel) : Gar :=
  let limit := (g.channel c).settings.ageLimit.toNat
  let queue := (g.channel c).queue
  if (g.channel c).settings.policy = .priority ∧ 0 < limit then
    let aged (m : Requester) : RequesterRecord := { g.requester m with state := (g.requester m).state.pass limit }
    let before (m : Requester) : Bool := (g.requester m).state.isPromoted
    let after (m : Requester) : Bool := (aged m).state.isPromoted
    { requesters := Tbl.build fun m => if m ∈ queue then aged m else g.requester m
      channels := g.channels.write c { g.channel c with
        queue := queue.filter before ++ queue.filter (fun m => !before m && after m) ++ queue.filter (fun m => !after m) } }
  else g

/-! ### Granting (R117, R118) -/

/-- A grant of channel `c` to `q`, the head of its queue, with `rest` behind it (R118). -/
def Gar.grant (g : Gar) (c : Channel) (q : Requester) (rest : List Requester) (now : Time) : GarStep :=
  let x := g.channel c
  let taken := (g.setState q (.granted 0 now)).setChannel c
    { x with
      phase := .held q
      queue := rest
      holdTimer := if 0 < x.settings.holdLimit.toNat then .start x.settings.holdLimit.toNat else .stopped
      grants := satInc x.grants }
  { gar := taken.age c
    events :=
      if x.settings.reportGrants then
        [{ channel := c, requester := q, what := .granted, reason := .none, units := 0, duration := 0, time := now }]
      else [] }

/-- The grant test: an open channel in phase IDLE with a nonempty queue grants its head (R117). -/
def Gar.grantTest (g : Gar) (c : Channel) (now : Time) : GarStep :=
  match (g.channel c).settings.isOpen, (g.channel c).phase, (g.channel c).queue with
  | true, .idle, q :: rest => g.grant c q rest now
  | true, .idle, [] => GarStep.quiet g
  | true, .held _, _ => GarStep.quiet g
  | true, .settling _, _ => GarStep.quiet g
  | false, _, _ => GarStep.quiet g

/-! ### Ends of a grant (R120, R121) -/

/-- A normal end of the grant of `q` on channel `c` (R120). -/
def Gar.endGrant (g : Gar) (c : Channel) (q : Requester) (reason : EndReason) (now : Time) : GarStep :=
  let x := g.channel c
  let r := (g.requester q).state
  { gar := (g.setState q .idle).setChannel c { x with phase := .idle, holdTimer := .stopped }
    events :=
      if x.settings.reportGrants then
        [{ channel := c, requester := q, what := .ended, reason := reason, units := r.units,
           duration := elapsed now r.start, time := now }]
      else [] }

/-- The end of a grant on QUOTA, and the rejoin of a requester whose REQ is high (R121). -/
def Gar.endOnQuota (g : Gar) (c : Channel) (q : Requester) (now : Time) : GarStep :=
  (g.endGrant c q .quota now).andThen fun g =>
    GarStep.quiet (if (g.requester q).reqLevel = .high then g.enqueue c q else g)

/-! ### Recovery (R122 to R124) -/

/-- The two recoveries: the hold timer expires (R122), or the host revokes the channel (R123). -/
inductive Recovery where
  | holdTimeout
  | revoke
deriving DecidableEq, Repr

/-- The block reason a recovery leaves (R122, R123). -/
def Recovery.reason : Recovery → BlockReason
  | .holdTimeout => .timeout
  | .revoke => .revoked

/-- What the GRANT_EVENT of a recovery reports (R129). -/
def Recovery.what : Recovery → GrantWhat
  | .holdTimeout => .timeout
  | .revoke => .revoked

/-- A channel is taken back from its holder: by the hold timer with reason TIMEOUT, by REVOKE with reason REVOKED
(R122, R123). Nothing when the channel has no holder. -/
def Gar.takeBack (g : Gar) (c : Channel) (recovery : Recovery) (now : Time) : GarStep :=
  let x := g.channel c
  match x.phase with
  | .held q =>
      let r := (g.requester q).state
      { gar := (g.setState q (.blocked recovery.reason)).setChannel c
          { x with
            phase := .settling (some q)
            holdTimer := .stopped
            settleTimer := .start x.settings.settleLimit.toNat
            timeouts := if recovery = .holdTimeout then satInc x.timeouts else x.timeouts
            revokes := if recovery = .revoke then satInc x.revokes else x.revokes }
        events :=
          [{ channel := c, requester := q, what := recovery.what, reason := .none, units := r.units,
             duration := elapsed now r.start, time := now }] }
  | .idle | .settling _ => GarStep.quiet g

/-- The end of settling (R124). -/
def Gar.endSettling (g : Gar) (c : Channel) : Gar :=
  g.setChannel c { g.channel c with phase := .idle, settleTimer := .stopped }

/-! ### The handshake (R99, R101, R102) -/

/-- A DONE edge of a requester of channel `c`, by its state (R102). -/
def Gar.doneEdge (g : Gar) (c : Channel) (q : Requester) (now : Time) : GarStep :=
  let x := g.channel c
  match (g.requester q).state with
  | .detached => GarStep.quiet g
  | .granted units start =>
      let counted := g.setState q (.granted (satInc units) start)
      if 0 < x.settings.quota.toNat ∧ x.settings.quota.toNat ≤ (satInc units).toNat then counted.endOnQuota c q now
      else GarStep.quiet counted
  | .blocked .timeout | .blocked .revoked => GarStep.quiet (g.setChannel c { x with lateDones := satInc x.lateDones })
  | .blocked .reset | .idle | .waiting _ _ =>
      GarStep.quiet (g.setChannel c { x with strayDones := satInc x.strayDones })

/-- The DONE sample of a requester of channel `c`: HIGH after LOW is an edge, and the first sample after a reset gives none
(R99). -/
def Gar.takeDone (g : Gar) (c : Channel) (q : Requester) (sample : Level) (now : Time) : GarStep :=
  let sampled := g.setRequester q { g.requester q with doneLevel := some sample }
  if (g.requester q).doneLevel = some .low ∧ sample = .high then sampled.doneEdge c q now else GarStep.quiet sampled

/-- A REQ drop of a requester of channel `c`, by its state (R101, R124). -/
def Gar.reqDrop (g : Gar) (c : Channel) (q : Requester) (now : Time) : GarStep :=
  match (g.requester q).state with
  | .waiting _ _ => GarStep.quiet (g.withdraw c q)
  | .granted _ _ => g.endGrant c q .released now
  | .blocked _ =>
      let freed := g.setState q .idle
      GarStep.quiet (if (g.channel c).phase = .settling (some q) then freed.endSettling c else freed)
  | .detached | .idle => GarStep.quiet g

/-- A REQ rise of a requester of channel `c`: an arrival when it is IDLE (R101). -/
def Gar.reqRise (g : Gar) (c : Channel) (q : Requester) : Gar :=
  match (g.requester q).state with
  | .idle => g.enqueue c q
  | .detached | .waiting _ _ | .granted _ _ | .blocked _ => g

/-- The REQ sample of a requester of channel `c`; a sample equal to the recorded level changes nothing (R101). -/
def Gar.takeReq (g : Gar) (c : Channel) (q : Requester) (sample : Level) (now : Time) : GarStep :=
  if (g.requester q).reqLevel = sample then GarStep.quiet g
  else
    let sampled := g.setRequester q { g.requester q with reqLevel := sample }
    match sample with
    | .high => GarStep.quiet (sampled.reqRise c q)
    | .low => sampled.reqDrop c q now

/-- The samples of one requester in the sample event of channel `c`: DONE and then REQ for a requester of the channel; the
levels alone for a DETACHED one; nothing for a requester of another channel (R99). -/
def Gar.sampleRequester (c : Channel) (req done : Pins) (now : Time) (q : Requester) (g : Gar) : GarStep :=
  match (g.requester q).assigned with
  | none =>
      GarStep.quiet (g.setRequester q
        { g.requester q with reqLevel := req.read q, doneLevel := some (done.read q) })
  | some own =>
      if own = c then (g.takeDone c q (done.read q) now).andThen fun g => g.takeReq c q (req.read q) now
      else GarStep.quiet g

/-- The sample event of a channel: its requesters in ascending number, and then the grant test (R99, R117). -/
def Gar.sampleEvent (g : Gar) (c : Channel) (req done : Pins) (now : Time) : GarStep :=
  ((allOf 12).foldl (fun x q => x.andThen (Gar.sampleRequester c req done now q)) (GarStep.quiet g)).andThen fun g =>
    g.grantTest c now

/-! ### Requests (R105, R106, R108) -/

/-- A channel is in use (R105). -/
def ChannelRecord.inUse (x : ChannelRecord) : Bool := decide (x.phase ≠ .idle) || !x.queue.isEmpty

/-- A locked field differs (R105). -/
def ChannelSettings.lockedDiffers (a b : ChannelSettings) : Bool :=
  decide (a.quota ≠ b.quota) || decide (a.policy ≠ b.policy) || decide (a.holdLimit ≠ b.holdLimit) ||
    decide (a.settleLimit ≠ b.settleLimit) || decide (a.ageLimit ≠ b.ageLimit)

/-- An accepted CHANNEL_SET: the settings are replaced and the grant rule is applied (R106, R117). -/
def Gar.configure (g : Gar) (c : Channel) (settings : ChannelSettings) (now : Time) : GarStep :=
  Gar.grantTest (g.setChannel c { g.channel c with settings := settings }) c now

/-- A BLOCKED requester that leaves its channel ceases to be the channel's settling requester (R108). -/
def Gar.releaseSettling (g : Gar) (q : Requester) (next : Option Channel) : Gar :=
  match (g.requester q).assigned with
  | some old =>
      if next ≠ some old ∧ (g.channel old).phase = .settling (some q) then
        g.setChannel old { g.channel old with phase := .settling none }
      else g
  | none => g

/-- An accepted ASSIGN of a DETACHED, IDLE or BLOCKED requester (R108). -/
def Gar.assign (g : Gar) (f : AssignFields) (now : Time) : GarStep :=
  let r := g.requester f.requester
  let placed (state : RequesterState) : RequesterRecord :=
    { r with assigned := f.channel, priority := f.priority, state := state }
  match f.channel with
  | none =>
      GarStep.quiet ((g.releaseSettling f.requester none).setRequester f.requester (placed .detached))
  | some c =>
      match r.state with
      | .blocked reason =>
          ((g.releaseSettling f.requester (some c)).setRequester f.requester (placed (.blocked reason))).grantTest c now
      | .detached | .idle | .waiting _ _ | .granted _ _ =>
          let idle := g.setRequester f.requester (placed .idle)
          Gar.grantTest (if r.reqLevel = .high then idle.enqueue c f.requester else idle) c now

/-- The state after an event at the GAR: its posts go to the NQ, where each is taken as an event of its own (R129). -/
def State.applyGar (s : State) (x : GarStep) : State :=
  { s with gar := x.gar, nq := s.nq.hand (x.events.map Post.grant) }

end Sys2Proof.Machine
end

