-- ==== Sys2Proof/Machine/Link.lean ====
section
/-! DEFINITION. The Management Link: the receiver, the notice sender, the transmitter and the dispatcher (08, 09). -/

namespace Sys2Proof.Machine

/-! ### The receiver (R132 to R138) -/

/-- What a received character completes. -/
inductive RxEvent where
  | none
  /-- A length above 40 (R135). -/
  | lengthError
  /-- A frame whose check value does not agree (R136). -/
  | checkError
  /-- A good frame (R136). -/
  | good (frame : Frame)
deriving DecidableEq, Repr

/-- A character taken in the present phase (R134 to R136). -/
def Receiving.take (b : Byte) : Receiving → Receiving × RxEvent
  | .hunt => (if b = Config.sync then .kind else .hunt, .none)
  | .kind => (.tag b, .none)
  | .tag k => (.length k b, .none)
  | .length k t =>
      if Config.maxBody < b.toNat then (.hunt, .lengthError)
      else if b = 0 then (.checkHigh k t b [], .none)
      else (.body k t b [], .none)
  | .body k t n sofar =>
      if n.toNat ≤ (sofar ++ [b]).length then (.checkHigh k t n (sofar ++ [b]), .none)
      else (.body k t n (sofar ++ [b]), .none)
  | .checkHigh k t n bytes => (.checkLow k t n bytes b, .none)
  | .checkLow k t n bytes high =>
      if crc16 (k :: t :: n :: bytes) = half high b then (.hunt, .good { kind := k, tag := t, body := bytes })
      else (.hunt, .checkError)

/-- The receiver is inside a frame: phase HEADER, BODY or CHECK (R134). -/
def Receiving.inFrame (r : Receiving) : Bool := decide (r ≠ .hunt)

/-- One link counter increased by one (08 section 8.6). -/
def Mlk.count (m : Mlk) (f : LinkCounters → LinkCounters) : Mlk := { m with counters := f m.counters }

/-- A good frame in the receive buffer with its good-frame indication handed to the notice sender, which a frame of a
non-request kind does not give (R138). -/
def Buffered.handed (f : Frame) : Buffered := { frame := f, indication := isRequestKind f.kind }

/-- A good frame offered to the receive buffer (R138). -/
def Mlk.offer (m : Mlk) (f : Frame) : Mlk :=
  if m.buffer.length < Config.bufferCapacity then
    { m with buffer := m.buffer ++ [Buffered.handed f] }
  else m.count fun c => { c with overruns := satInc c.overruns }

/-- The effect of what a character has completed. -/
def Mlk.rxEvent (m : Mlk) : RxEvent → Mlk
  | .none => m
  | .lengthError => m.count fun c => { c with lengthErrors := satInc c.lengthErrors }
  | .checkError => m.count fun c => { c with checkErrors := satInc c.checkErrors }
  | .good f => m.offer f

/-- A character is received (R132, R134): it is taken in the present phase, and the gap timer starts unless the receiver
is then in HUNT (R137). -/
def Mlk.receive (m : Mlk) (b : Byte) : Mlk :=
  let next := m.receiver.receiving.take b
  { m with receiver := { m.receiver with
      receiving := next.1, gapTimer := next.1.inFrame, inCharacter := false } }.rxEvent next.2

/-- A frame in progress is aborted: counted, and the receiver returns to HUNT; nothing in HUNT (R132, R137). -/
def Mlk.abortFrame (m : Mlk) : Mlk :=
  if m.receiver.receiving.inFrame then
    { m with
      receiver := { m.receiver with receiving := .hunt, gapTimer := false }
      counters := { m.counters with gapAborts := satInc m.counters.gapAborts } }
  else m

/-! ### The notice sender (R151 to R158) -/

/-- The number after a notice number: 255 is followed by 1, so that 0 is never offered (R154). -/
def nextNotice (n : Byte) : Byte := if n = 255 then 1 else n + 1

/-- The first number from `n` on that no IN_FLIGHT entry carries, passing over at most `fuel` numbers (R154). -/
def offerNumber (carried : List Byte) : Nat → Byte → Byte
  | 0, n => n
  | fuel + 1, n => if n ∈ carried then offerNumber carried fuel (nextNotice n) else n

/-- The number the next first sending takes. -/
def State.offered (s : State) : Byte := offerNumber s.nq.inFlight 255 s.mlk.sender.nextNumber

/-- The length of the retransmit timer in milliseconds (R155). -/
def LinkSettings.retransmitMs (l : LinkSettings) : Nat := Config.intervalUnit * l.interval.toNat

/-- The notice sender replaced. -/
def Mlk.withSender (m : Mlk) (x : Sender) : Mlk := { m with sender := x }

/-- A retransmission round begins with every IN_FLIGHT entry in queue order: it is counted, and the timer is restarted
(R156, R158). -/
def State.beginRound (s : State) : State :=
  s.withMlk { s.mlk with
    sender := { s.mlk.sender with
      roundList := s.nq.inFlight
      timer := .start s.mlk.settings.retransmitMs }
    counters := { s.mlk.counters with rounds := satInc s.mlk.counters.rounds } }

/-- The start of a resend frame: the head of the round list leaves the list, and the frame carries that entry (R156). -/
def State.resend (s : State) (number : Byte) (rest : List Byte) : State :=
  s.withMlk { s.mlk with
    tx := match s.nq.queue.find? (Entry.hasNumber number) with
      | some e => .notice (e.body.frame number)
      | none => .idle
    sender := { s.mlk.sender with roundList := rest } }

/-- The start of the first sending of the first UNSENT entry (R153, R154). -/
def State.firstSending (s : State) (e : Entry) : State :=
  let number := s.offered
  let queue := updateFirst Entry.isUnsent (fun e => { e with delivery := .inFlight number }) s.nq.queue
  { s with
    nq := { s.nq with queue := queue }
    mlk := { s.mlk with
      tx := .notice (e.body.frame number)
      sender := { s.mlk.sender with
        nextNumber := nextNotice number
        timer := if s.nq.inFlightCount = 0 then .start s.mlk.settings.retransmitMs else s.mlk.sender.timer } } }

/-- The notice frame of the sender is started: a resend while the round list is nonempty, and else the first sending of
the first UNSENT entry (R152). -/
def State.startNotice (s : State) : State :=
  match s.mlk.sender.roundList with
  | number :: rest => s.resend number rest
  | [] =>
      match s.nq.queue.find? Entry.isUnsent with
      | some e => s.firstSending e
      | none => s

/-! ### The transmitter (R144) -/

/-- The rule at a frame boundary: a waiting reply is started, else a notice frame the sender claims for, else nothing; a
transmitter that is sending goes on (R144). -/
def State.startNext (s : State) : State :=
  match s.mlk.tx with
  | .reply | .notice _ => s
  | .idle =>
      if s.mlk.replies.isEmpty then
        if s.noticeClaim then s.startNotice else s
      else s.withMlk { s.mlk with tx := .reply }

/-- The rate switch at the end of a LINK_SET reply: the line rate changes, and a frame in progress and a character partly
received are discarded without a count (R149). -/
def Mlk.switchRate (m : Mlk) (rate : RateCode) : Mlk :=
  { m with
    lineRate := rate
    receiver := { m.receiver with receiving := .hunt, gapTimer := false, inCharacter := false } }

/-- The end of the frame being sent: a reply leaves the reply queue, with its rate switch (R143, R149). -/
def Mlk.endFrame (m : Mlk) : Mlk :=
  match m.tx with
  | .idle => m
  | .notice _ => { m with tx := .idle }
  | .reply =>
      let rest := { m with tx := .idle, replies := m.replies.tail }
      match m.replies.head?.bind Reply.rateSwitch with
      | some rate => rest.switchRate rate
      | none => rest

/-! ### The dispatcher (R139 to R143) -/

/-- The frame the dispatcher takes next: the oldest in the receive buffer, while the reply queue has room (R139). A request
whose good-frame indication has not been taken waits for it, since the indication comes before the dispatch (R142, R158); so
no request is dispatched on a STALLED link (R157). -/
def State.nextFrame (s : State) : Option Frame :=
  if s.mlk.replies.length < Config.replyCapacity then
    match s.mlk.buffer with
    | [] => none
    | b :: _ => if b.indication then none else some b.frame
  else none

/-- The frame is a duplicate of the request the saved reply answers (R139). -/
def State.isDuplicate (s : State) (f : Frame) : Bool :=
  isRequestKind f.kind && decide (f.kind ≠ RequestKind.resync.code) &&
    decide ((s.mlk.saved.map Frame.tag) = some f.tag)

/-- The taken frame leaves the buffer (R139). -/
def State.takeFrame (s : State) : State := s.withMlk { s.mlk with buffer := s.mlk.buffer.tail }

/-- What the owner of a request answers: its new state, the result, the fields after the result code, and a rate switch. -/
structure Answer where
  state : State
  result : Result
  fields : List Byte
  rateSwitch : Option RateCode
deriving DecidableEq, Repr

/-- A refused request changes nothing and answers its result code alone (R133, R142). -/
def State.refuse (s : State) (r : Result) : Answer := { state := s, result := r, fields := [], rateSwitch := none }

/-- An accepted request answers OK with its fields (R133). -/
def State.accept (s : State) (fields : List Byte) : Answer :=
  { state := s, result := .ok, fields := fields, rateSwitch := none }

/-- The reply to a request (R133, R170). -/
def replyFrame (f : Frame) (a : Answer) : Frame :=
  { kind := replyKind f.kind, tag := f.tag, body := a.result.code :: a.fields }

/-- A reply is appended to the reply queue (R143). -/
def Mlk.queueReply (m : Mlk) (r : Reply) : Mlk := { m with replies := m.replies ++ [r] }

/-- The reply of an executed request is formed, saved and queued (R141). -/
def State.finish (f : Frame) (a : Answer) : State :=
  State.startNext (a.state.withMlk
    (Mlk.queueReply { a.state.mlk with saved := some (replyFrame f a) }
      { frame := replyFrame f a, rateSwitch := a.rateSwitch }))

/-- The execution of a request of one kind by its owner (R139 case 3, R141): the dispatcher takes the frame, the owner
executes it, and the reply is saved and queued. When the frame the dispatcher takes next is no such request, or is a
duplicate, or there is none, this is not the event that happens and nothing changes. -/
def State.execute (s : State) (kind : RequestKind) (owner : List Byte → State → Answer) : State :=
  match s.nextFrame with
  | none => s
  | some f =>
      if f.kind = kind.code ∧ s.isDuplicate f = false then State.finish f (owner f.body s.takeFrame) else s

end Sys2Proof.Machine
end

