-- ==== Sys2Proof/Machine/NoticeSteps.lean ====
section
/-! DEFINITION. The notice path: posts, the good-frame indication and the retransmit timer (R83 to R88, R156 to R158). -/

namespace Sys2Proof.Machine

/-- The taking of one post by the NQ: it is coalesced, appended or lost (R83 to R86), S28 is evaluated (R88), and a claim at an
idle transmitter is started (R144, R152). -/
def State.takePost (s : State) (p : Post) : State := (s.withNq (s.nq.takePost s.now p)).evaluate.startNext

/-- The taking of every post handed and not yet taken, in the order they were handed (05 section 5.3). -/
def State.takePosts (s : State) : State := s.nq.posts.foldl State.takePost (s.withNq { s.nq with posts := [] })

/-- SOURCE_EVENT_POST (R83): the oldest post, when it is a source event, is taken. -/
def execSourceEventPost (s : State) : Host.Outcome State Fault Refusal :=
  .next (s.whenLive
    (match s.nq.posts with
    | .source p :: rest => (s.withNq { s.nq with posts := rest }).takePost (.source p)
    | .grant _ :: _ => s
    | [] => s))

/-- GRANT_EVENT_POST (R84): the oldest post, when it is a grant event, is taken. -/
def execGrantEventPost (s : State) : Host.Outcome State Fault Refusal :=
  .next (s.whenLive
    (match s.nq.posts with
    | .grant e :: rest => (s.withNq { s.nq with posts := rest }).takePost (.grant e)
    | .source _ :: _ => s
    | [] => s))

/-- The oldest outstanding good-frame indication is taken from the receive buffer (R138, R158). -/
def Mlk.takeIndication (m : Mlk) : Mlk :=
  { m with buffer := updateFirst Buffered.indication (fun b => { b with indication := false }) m.buffer }

/-- The recovery of a STALLED link: RUNNING, retry count 0, a retransmission round, the timer restarted (R158). -/
def State.recover (s : State) : State :=
  State.evaluate (State.beginRound
    (s.withMlk (s.mlk.withSender { s.mlk.sender with link := .running, retryCount := 0 })))

/-- GOOD_FRAME_INDICATION (R158): no effect on a RUNNING link; on a STALLED one the stall ends. An idle transmitter takes the
claim of the round at once when `noticeFirst` says so, and else after the reply of the request (R144, R158; log 13). -/
def execGoodFrameIndication (noticeFirst : Bool) (s : State) : Host.Outcome State Fault Refusal :=
  .next (s.whenLive
    (if s.mlk.buffer.any Buffered.indication then
      let taken := s.withMlk s.mlk.takeIndication
      match s.mlk.sender.link with
      | .running => taken
      | .stalled => if noticeFirst then taken.recover.startNext else taken.recover
    else s))

/-- The link becomes STALLED: the timer has run out, the round list is emptied, the stall is counted (R157). A request frame
already in the receive buffer still ends the stall before it is dispatched (R157, R161), so its good-frame indication is to be
taken again (log 14). -/
def State.stall (s : State) : State :=
  State.evaluate (s.withMlk { s.mlk with
    buffer := s.mlk.buffer.map fun b => Buffered.handed b.frame
    sender := { s.mlk.sender with link := .stalled, timer := .stopped, roundList := [] }
    counters := { s.mlk.counters with stalls := satInc s.mlk.counters.stalls } })

/-- RETRANSMIT_TIMER_EXPIRY (R156, R157). -/
def execRetransmitTimerExpiry (s : State) : Host.Outcome State Fault Refusal :=
  .next (s.whenLive
    (if s.mlk.sender.timer.due then
      if s.mlk.sender.retryCount < s.mlk.settings.retryLimit.toNat then
        (State.beginRound
          (s.withMlk (s.mlk.withSender { s.mlk.sender with retryCount := s.mlk.sender.retryCount + 1 }))).startNext
      else s.stall
    else s))

end Sys2Proof.Machine
end

