-- ==== Sys2Proof/Machine/BindingRequests.lean ====
section
/-! DEFINITION. The requests of the RTU: BIND, UNBIND, SOURCE_QUERY, MASK, SERVICE and PENDING_LIST (02, 03). -/

namespace Sys2Proof.Machine

/-! ### BIND (R24 to R28) -/

/-- The record an accepted BIND stores (R26 steps 1 to 3): class SHARED for REPORT_ONLY, and LEVEL_HIGH with filter 0 for
an internal source. -/
def BindFields.record (f : BindFields) : BindingRecord :=
  { target := f.target
    cls := if f.target = .reportOnly then .shared else f.cls
    priority := f.priority
    sense := if f.source.val < 24 then f.sense else .levelHigh
    filter := if f.source.val < 24 then f.filter else 0
    report := f.report
    mask := false
    status := .idle
    again := false
    held := false }

/-- The bind-time level event (R27): a level-sensed source that is active has an event at the BIND. -/
def Rtu.bindTimeEvent (r : Rtu) (source : Source) (level : Accepted) (now : Time) : RtuStep :=
  match level with
  | .known l =>
      if (r.record source).sense.active level then r.event { source := source, level := l, time := now }
      else RtuStep.quiet r
  | .unknown => RtuStep.quiet r

/-- An accepted BIND at the RTU, with the accepted level read at step 5 (R26, R27). -/
def Rtu.bind (r : Rtu) (f : BindFields) (level : Accepted) (now : Time) : RtuStep :=
  (r.takeReportsOf f.source).andThen fun r => (r.setRecord f.source f.record).bindTimeEvent f.source level now

/-- BIND at its owner. -/
def bindOwner (body : List Byte) (s : State) : Answer :=
  match readBind body with
  | .error r => s.refuse r
  | .ok f =>
      if (s.rtu.record f.source).isBound then s.refuse .bound
      else if s.rtu.admits f.target f.cls = false then s.refuse .conflict
      else
        let x := s.rtu.bind f (s.scu.level f.source) s.now
        let t := (s.withScu (s.scu.changeFilter f.source (s.rtu.record f.source).filter f.record.filter)).applyRtu x
        t.accept [(x.rtu.record f.source).status.code]

/-- BIND (R24 to R28). -/
def execBind (s : State) : Host.Outcome State Fault Refusal := .next (s.whenLive (s.execute .bind bindOwner))

/-! ### UNBIND (R29 to R34) -/

/-- An accepted UNBIND at the RTU: a PENDING source leaves its set without a trigger, and the record becomes unbound
(R30, R33). -/
def Rtu.unbind (r : Rtu) (source : Source) : Rtu :=
  let left :=
    match (r.record source).status, (r.record source).target with
    | .pending, .line l => r.leave source l
    | .pending, .reportOnly => r
    | .idle, _ => r
    | .unbound, _ => r
  left.setRecord source BindingRecord.unbound

/-- An accepted UNBIND: the RTU's part, the withdrawal of the source's UNSENT SOURCE_EVENT entry, and the evaluation of the
internal sources (R29 to R33, R12). -/
def State.unbind (s : State) (source : Source) : State :=
  let t := (s.withScu (s.scu.changeFilter source (s.rtu.record source).filter 0)).withNq (s.nq.withdraw source)
  (t.applyRtu (RtuStep.quiet (s.rtu.unbind source))).evaluate

/-- UNBIND at its owner. The NQ takes the posts handed before the UNBIND first, so that the notice of an event taken before it
is withdrawn, or has been sent (R31, R34, R90; log 9). -/
def unbindOwner (body : List Byte) (s : State) : Answer :=
  match oneField (unitNumber 30) body with
  | .error r => s.refuse r
  | .ok source =>
      if (s.rtu.record source).isBound = false then s.refuse .notBound
      else
        (s.takePosts.unbind source).accept
          [(s.rtu.record source).status.code, byteOf (s.takePosts.nq.withdrawals source)]

/-- UNBIND (R29 to R34). -/
def execUnbind (s : State) : Host.Outcome State Fault Refusal := .next (s.whenLive (s.execute .unbind unbindOwner))

/-! ### SOURCE_QUERY (R35, R36) -/

/-- The fields of the SOURCE_QUERY reply after the result code (R35, R170). -/
def State.sourceFields (s : State) (source : Source) : List Byte :=
  let x := s.rtu.record source
  [byteOf source.val, x.status.code, x.target.code, x.cls.code, byteOf x.priority.val, x.sense.code, x.filter,
    flagCode x.report, flagCode x.mask, flagCode x.again, flagCode x.held, byteOf (s.rtu.position source),
    (s.scu.level source).code]

/-- SOURCE_QUERY at its owner. -/
def sourceQueryOwner (body : List Byte) (s : State) : Answer :=
  match oneField (unitNumber 30) body with
  | .error r => s.refuse r
  | .ok source => s.accept (s.sourceFields source)

/-- SOURCE_QUERY (R35, R36). -/
def execSourceQuery (s : State) : Host.Outcome State Fault Refusal :=
  .next (s.whenLive (s.execute .sourceQuery sourceQueryOwner))

/-! ### MASK (R52 to R56) -/

/-- MASK on at the RTU (R52). -/
def Rtu.maskOn (r : Rtu) (source : Source) : Rtu :=
  let x := r.record source
  if x.mask then r
  else
    match x.status, x.target with
    | .pending, .line l =>
        (r.leave source l).setRecord source { x with mask := true, status := .idle, again := false, held := true }
    | .pending, .reportOnly => r.setRecord source { x with mask := true }
    | .idle, _ => r.setRecord source { x with mask := true }
    | .unbound, _ => r.setRecord source { x with mask := true }

/-- MASK off at the RTU, for a masked source, with the accepted level read (R53, R54). -/
def Rtu.unmask (r : Rtu) (source : Source) (level : Accepted) (now : Time) : RtuStep :=
  let x := r.record source
  let bare := r.setRecord source { x with mask := false, held := false }
  let posts :=
    match level with
    | .known l => if x.held && x.report then [{ source := source, level := l, time := now }] else []
    | .unknown => []
  match x.target with
  | .reportOnly => { RtuStep.quiet bare with posts := posts }
  | .line l =>
      if x.held || x.sense.active level then { bare.joinWithTrigger source l with posts := posts }
      else RtuStep.quiet bare

/-- MASK off reads the accepted level for an activity check: the source has a line target and a level sense, and no event is
held (R53). -/
def BindingRecord.unmaskReads (x : BindingRecord) : Bool :=
  decide (x.target ≠ .reportOnly) && x.sense.isLevel && !x.held

/-- MASK off at the RTU; a source that is not masked is left as it is (R53). -/
def Rtu.maskOff (r : Rtu) (source : Source) (level : Accepted) (now : Time) : RtuStep :=
  if (r.record source).mask then
    (r.takeReportsIf (r.record source).unmaskReads source).andThen fun r => r.unmask source level now
  else RtuStep.quiet r

/-- MASK off releases a held event (R55): the source is masked, and held is set once the reports taken first are taken. -/
def Rtu.releases (r : Rtu) (source : Source) : Bool :=
  (r.record source).mask && ((r.takeReportsIf (r.record source).unmaskReads source).rtu.record source).held

/-- MASK on at its owner. -/
def maskOnOwner (body : List Byte) (s : State) : Answer :=
  match readMask body with
  | .error r => s.refuse r
  | .ok (source, _) =>
      if (s.rtu.record source).isBound = false then s.refuse .notBound
      else
        let x := RtuStep.quiet (s.rtu.maskOn source)
        (s.applyRtu x).accept [(x.rtu.record source).status.code, 0]

/-- MASK off at its owner. -/
def maskOffOwner (body : List Byte) (s : State) : Answer :=
  match readMask body with
  | .error r => s.refuse r
  | .ok (source, _) =>
      if (s.rtu.record source).isBound = false then s.refuse .notBound
      else
        let x := s.rtu.maskOff source (s.scu.level source) s.now
        (s.applyRtu x).accept [(x.rtu.record source).status.code, flagCode (s.rtu.releases source)]

/-- The mask value of the frame the dispatcher takes next, when it is a MASK body with a value in range. -/
def State.nextMaskValue (s : State) : Option Bool :=
  match s.nextFrame with
  | none => none
  | some f =>
      match f.body with
      | [_, value] => flagField value
      | _ => none

/-- MASK_ON (R52, R55): a MASK request, but for one whose mask value is off. One refused for its length or its mask value is
taken by this command as by MASK_OFF (log 5). -/
def execMaskOn (s : State) : Host.Outcome State Fault Refusal :=
  .next (s.whenLive (if s.nextMaskValue = some false then s else s.execute .mask maskOnOwner))

/-- MASK_OFF (R53 to R55): a MASK request, but for one whose mask value is on. -/
def execMaskOff (s : State) : Host.Outcome State Fault Refusal :=
  .next (s.whenLive (if s.nextMaskValue = some true then s else s.execute .mask maskOffOwner))

/-! ### SERVICE (R47 to R51) -/

/-- An accepted SERVICE of a PENDING source of line `l`, with the accepted level read (R48, R49): it leaves its set, rejoins
with a join trigger when again is set or it is level-sensed and active, and else becomes IDLE, with a reminder trigger
when the set is still nonempty. -/
def Rtu.serve (r : Rtu) (source : Source) (l : Line) (level : Accepted) : RtuStep :=
  let x := r.record source
  let left := r.leave source l
  if x.again || x.sense.active level then
    (left.setRecord source { left.record source with again := false }).joinWithTrigger source l
  else
    { RtuStep.quiet left with triggers := if left.nonempty l then [{ kind := .reminder, line := l }] else [] }

/-- SERVICE reads the accepted level for an activity check: again is clear and the source is level-sensed (R48). -/
def BindingRecord.serviceReads (x : BindingRecord) : Bool := x.sense.isLevel && !x.again

/-- An accepted SERVICE at the RTU. -/
def Rtu.service (r : Rtu) (source : Source) (level : Accepted) : RtuStep :=
  match (r.record source).target with
  | .line l => (r.takeReportsIf (r.record source).serviceReads source).andThen fun r => r.serve source l level
  | .reportOnly => RtuStep.quiet r

/-- SERVICE at its owner. -/
def serviceOwner (body : List Byte) (s : State) : Answer :=
  match oneField (unitNumber 30) body with
  | .error r => s.refuse r
  | .ok source =>
      match (s.rtu.record source).status with
      | .unbound => s.refuse .notBound
      | .idle => s.refuse .notPending
      | .pending =>
          let x := s.rtu.service source (s.scu.level source)
          (s.applyRtu x).accept [(x.rtu.record source).status.code]

/-- SERVICE (R47 to R51). -/
def execService (s : State) : Host.Outcome State Fault Refusal := .next (s.whenLive (s.execute .service serviceOwner))

/-! ### PENDING_LIST (R57) -/

/-- PENDING_LIST at its owner. -/
def pendingListOwner (body : List Byte) (s : State) : Answer :=
  match oneField (unitNumber 8) body with
  | .error r => s.refuse r
  | .ok line =>
      let members := s.rtu.sets.read line
      s.accept ([byteOf line.val, byteOf members.length] ++ members.map fun m => byteOf m.val)

/-- PENDING_LIST (R57). -/
def execPendingList (s : State) : Host.Outcome State Fault Refusal :=
  .next (s.whenLive (s.execute .pendingList pendingListOwner))

end Sys2Proof.Machine
end

