-- ==== Sys2Proof/Machine/GrantRequests.lean ====
section
/-! DEFINITION. The requests of the GAR: CHANNEL_SET, ASSIGN, CHANNEL_QUERY and REVOKE (R104 to R110, R123). -/

namespace Sys2Proof.Machine

/-- CHANNEL_SET at its owner. -/
def channelSetOwner (body : List Byte) (s : State) : Answer :=
  match readChannelSet body with
  | .error r => s.refuse r
  | .ok (channel, settings) =>
      if (s.gar.channel channel).inUse && settings.lockedDiffers (s.gar.channel channel).settings then s.refuse .busy
      else
        let x := s.gar.configure channel settings s.now
        (s.applyGar x).accept [(x.gar.channel channel).phase.code, (x.gar.channel channel).phase.holderCode]

/-- CHANNEL_SET (R104 to R106). -/
def execChannelSet (s : State) : Host.Outcome State Fault Refusal :=
  .next (s.whenLive (s.execute .channelSet channelSetOwner))

/-- The requester is in a queue or holds a channel, so that ASSIGN cannot move it (R107). -/
def RequesterState.isEngaged : RequesterState → Bool
  | .waiting _ _ | .granted _ _ => true
  | .detached | .idle | .blocked _ => false

/-- ASSIGN at its owner. -/
def assignOwner (body : List Byte) (s : State) : Answer :=
  match readAssign body with
  | .error r => s.refuse r
  | .ok f =>
      if (s.gar.requester f.requester).state.isEngaged then s.refuse .busy
      else
        let x := s.gar.assign f s.now
        (s.applyGar x).evaluate.accept
          [(x.gar.requester f.requester).state.code, (x.gar.requester f.requester).state.blockCode]

/-- ASSIGN (R107 to R109). -/
def execAssign (s : State) : Host.Outcome State Fault Refusal := .next (s.whenLive (s.execute .assign assignOwner))

/-- Units completed by the holder; 0 with no holder (R110). -/
def Gar.holderUnits (g : Gar) (c : Channel) : Byte :=
  match (g.channel c).phase with
  | .held q => (g.requester q).state.units
  | .idle | .settling _ => 0

/-- Elapsed time of the holder's grant; 0 with no holder (R110). -/
def Gar.holderElapsed (g : Gar) (c : Channel) (now : Time) : Half :=
  match (g.channel c).phase with
  | .held q => elapsed now (g.requester q).state.start
  | .idle | .settling _ => 0

/-- The fields of the CHANNEL_QUERY reply after the result code (R110, R170). -/
def State.channelFields (s : State) (c : Channel) : List Byte :=
  let x := s.gar.channel c
  [byteOf c.val, flagCode x.settings.isOpen, x.settings.quota, x.settings.policy.code] ++ be16 x.settings.holdLimit ++
    [x.settings.settleLimit, x.settings.ageLimit, flagCode x.settings.reportGrants, x.phase.code, x.phase.holderCode,
      s.gar.holderUnits c] ++
    be16 (s.gar.holderElapsed c s.now) ++ [byteOf x.queue.length] ++ x.queue.map (fun q => byteOf q.val) ++
    be16 x.grants ++ be16 x.timeouts ++ be16 x.revokes ++ be16 x.lateDones ++ be16 x.strayDones

/-- CHANNEL_QUERY at its owner. -/
def channelQueryOwner (body : List Byte) (s : State) : Answer :=
  match oneField (unitNumber 4) body with
  | .error r => s.refuse r
  | .ok channel => s.accept (s.channelFields channel)

/-- CHANNEL_QUERY (R110). -/
def execChannelQuery (s : State) : Host.Outcome State Fault Refusal :=
  .next (s.whenLive (s.execute .channelQuery channelQueryOwner))

/-- REVOKE at its owner. -/
def revokeOwner (body : List Byte) (s : State) : Answer :=
  match oneField (unitNumber 4) body with
  | .error r => s.refuse r
  | .ok channel =>
      match (s.gar.channel channel).phase with
      | .held q =>
          (s.applyGar (s.gar.takeBack channel .revoke s.now)).evaluate.accept
            [byteOf q.val, (s.gar.requester q).state.units]
      | .idle | .settling _ => s.refuse .noHolder

/-- REVOKE (R123). -/
def execRevoke (s : State) : Host.Outcome State Fault Refusal := .next (s.whenLive (s.execute .revoke revokeOwner))

end Sys2Proof.Machine
end

