-- ==== Sys2Proof/Machine/GrantSteps.lean ====
section
/-! DEFINITION. The grant channels: sample events and the hold and settle timers (R99 to R102, R117 to R124). -/

namespace Sys2Proof.Machine

/-- CHANNEL_SAMPLE_EVENT (R99). -/
def execChannelSampleEvent (channel : Channel) (req done : Pins) (s : State) : Host.Outcome State Fault Refusal :=
  .next (s.whenLive (s.applyGar (s.gar.sampleEvent channel req done s.now)).evaluate)

/-- HOLD_TIMER_EXPIRY (R122). -/
def execHoldTimerExpiry (channel : Channel) (s : State) : Host.Outcome State Fault Refusal :=
  .next (s.whenLive
    (if (s.gar.channel channel).holdTimer.due then
      (s.applyGar (s.gar.takeBack channel .holdTimeout s.now)).evaluate
    else s))

/-- A channel is in phase SETTLING (R98). -/
def ChannelPhase.isSettling : ChannelPhase → Bool
  | .settling _ => true
  | .idle | .held _ => false

/-- SETTLE_TIMER_EXPIRY (R124): the settling ends, and the grant rule is applied (R117). -/
def execSettleTimerExpiry (channel : Channel) (s : State) : Host.Outcome State Fault Refusal :=
  .next (s.whenLive
    (if (s.gar.channel channel).settleTimer.due && (s.gar.channel channel).phase.isSettling then
      s.applyGar ((s.gar.endSettling channel).grantTest channel s.now)
    else s))

end Sys2Proof.Machine
end

