-- ==== Sys2Proof/Machine/LineRequests.lean ====
section
/-! DEFINITION. The requests of the ALD: LINE_SET and LINE_QUERY (R70 to R74). -/

namespace Sys2Proof.Machine

/-- LINE_SET at its owner. -/
def lineSetOwner (body : List Byte) (s : State) : Answer :=
  match readLineSet body with
  | .error r => s.refuse r
  | .ok (line, settings) =>
      let x := LineRecord.set settings (s.rtu.nonempty line)
      (s.withAld (s.ald.update line fun _ => x)).accept [x.phase.code, x.output.code]

/-- LINE_SET (R70 to R73). -/
def execLineSet (s : State) : Host.Outcome State Fault Refusal := .next (s.whenLive (s.execute .lineSet lineSetOwner))

/-- The fields of the LINE_QUERY reply after the result code (R74, R170). -/
def State.lineFields (s : State) (line : Line) : List Byte :=
  let x := s.ald.lines.read line
  [byteOf line.val, flagCode x.settings.enable, x.settings.mode.code, x.settings.polarity.code, x.settings.drive.code,
    x.settings.width, x.settings.gap, x.phase.code, flagCode x.owed, byteOf (s.rtu.sets.read line).length,
    x.output.code]

/-- LINE_QUERY at its owner. -/
def lineQueryOwner (body : List Byte) (s : State) : Answer :=
  match oneField (unitNumber 8) body with
  | .error r => s.refuse r
  | .ok line => s.accept (s.lineFields line)

/-- LINE_QUERY (R74). -/
def execLineQuery (s : State) : Host.Outcome State Fault Refusal :=
  .next (s.whenLive (s.execute .lineQuery lineQueryOwner))

end Sys2Proof.Machine
end

