-- ==== Sys2Proof/Machine/LineSteps.lean ====
section
/-! DEFINITION. The attention lines: triggers, occupancy changes and timer expiries (R61 to R69). -/

namespace Sys2Proof.Machine

/-- JOIN_TRIGGER (R61, R63, R64, R69). -/
def execJoinTrigger (line : Line) (s : State) : Host.Outcome State Fault Refusal :=
  .next (s.whenLive (s.withAld (s.ald.takeTrigger { kind := .join, line := line })))

/-- REMINDER_TRIGGER (R49, R63): it acts like a join trigger. -/
def execReminderTrigger (line : Line) (s : State) : Host.Outcome State Fault Refusal :=
  .next (s.whenLive (s.withAld (s.ald.takeTrigger { kind := .reminder, line := line })))

/-- OCCUPANCY_CHANGE (R61). -/
def execOccupancyChange (line : Line) (s : State) : Host.Outcome State Fault Refusal :=
  .next (s.whenLive (s.withAld (s.ald.takeOccupancy line (s.rtu.nonempty line))))

/-- WIDTH_TIMER_EXPIRY (R65). -/
def execWidthTimerExpiry (line : Line) (s : State) : Host.Outcome State Fault Refusal :=
  .next (s.whenLive (s.withAld (s.ald.update line LineRecord.endPulse)))

/-- GAP_TIMER_EXPIRY (R66). -/
def execGapTimerExpiry (line : Line) (s : State) : Host.Outcome State Fault Refusal :=
  .next (s.whenLive (s.withAld (s.ald.update line fun l => l.endGap (s.rtu.nonempty line))))

end Sys2Proof.Machine
end

