-- ==== Sys2Proof/Machine/LinkRequests.lean ====
section
/-! DEFINITION. The requests of the MLK: STATUS, NOTICE_ACK, LINK_SET and RESYNC (R146 to R149, R159 to R162). -/

namespace Sys2Proof.Machine

/-- The fields of the STATUS reply after the result code (R146, R170). -/
def State.statusFields (s : State) : List Byte :=
  let c := s.mlk.counters
  [Config.deviceCode, Config.revision] ++ be32 s.now ++
    [byteOf s.nq.queue.length, byteOf s.nq.unsentCount, byteOf s.nq.inFlightCount] ++ be16 s.nq.lossCount ++
    [s.mlk.sender.link.code, byteOf s.mlk.sender.retryCount] ++ be16 c.checkErrors ++ be16 c.gapAborts ++
    be16 c.lengthErrors ++ be16 c.overruns ++ be16 c.duplicates ++ be16 c.rounds ++ be16 c.stalls

/-- STATUS at its owner: with the clear flag set the seven counters become 0 once the reply has been formed. -/
def statusOwner (body : List Byte) (s : State) : Answer :=
  match oneField flagField body with
  | .error r => s.refuse r
  | .ok clear =>
      (if clear then s.withMlk { s.mlk with counters := LinkCounters.zero } else s).accept s.statusFields

/-- STATUS (R146). -/
def execStatus (s : State) : Host.Outcome State Fault Refusal := .next (s.whenLive (s.execute .status statusOwner))

/-- The numbers of a NOTICE_ACK taken in order: the queue after them, and each number with whether an IN_FLIGHT entry
carried it (R160). -/
def Nq.acknowledgeAll (n : Nq) : List Byte → Nq × List (Byte × Bool)
  | [] => (n, [])
  | number :: rest =>
      ((Nq.acknowledgeAll (n.acknowledge number) rest).1,
        (number, n.queue.any (Entry.hasNumber number)) :: (Nq.acknowledgeAll (n.acknowledge number) rest).2)

/-- The sender after a NOTICE_ACK (R160): the acknowledged entries leave the round list; when at least one number was ACKED
the retry count is 0, and the timer is restarted while entries remain IN_FLIGHT and stopped when none remain. -/
def Sender.acknowledged (x : Sender) (acked : List Byte) (remaining : Nat) (interval : Nat) : Sender :=
  if acked.isEmpty then x
  else
    { x with
      retryCount := 0
      roundList := x.roundList.filter fun n => !decide (n ∈ acked)
      timer := if remaining = 0 then .stopped else .start interval }

/-- An outcome of NOTICE_ACK as sent: the number and 0 ACKED or 1 UNKNOWN (R168, R170). -/
def outcomeFields (o : Byte × Bool) : List Byte := [o.1, if o.2 then 0 else 1]

/-- NOTICE_ACK at its owner. -/
def noticeAckOwner (body : List Byte) (s : State) : Answer :=
  match readNoticeAck body with
  | .error r => s.refuse r
  | .ok numbers =>
      let x := s.nq.acknowledgeAll numbers
      let acked := (x.2.filter Prod.snd).map Prod.fst
      let t := (s.withNq x.1).withMlk (s.mlk.withSender
        (s.mlk.sender.acknowledged acked x.1.inFlightCount s.mlk.settings.retransmitMs))
      t.evaluate.accept (byteOf numbers.length :: x.2.flatMap outcomeFields)

/-- NOTICE_ACK (R159, R160). -/
def execNoticeAck (s : State) : Host.Outcome State Fault Refusal :=
  .next (s.whenLive (s.execute .noticeAck noticeAckOwner))

/-- LINK_SET at its owner: a rate code that differs from the rate setting gives the reply a rate switch (R147, R149). -/
def linkSetOwner (body : List Byte) (s : State) : Answer :=
  match readLinkSet body with
  | .error r => s.refuse r
  | .ok settings =>
      { state := s.withMlk { s.mlk with settings := settings }
        result := .ok
        fields := []
        rateSwitch := if settings.rate = s.mlk.settings.rate then none else some settings.rate }

/-- LINK_SET (R147 to R149). -/
def execLinkSet (s : State) : Host.Outcome State Fault Refusal := .next (s.whenLive (s.execute .linkSet linkSetOwner))

/-- RESYNC at its owner (R162): the saved reply is cleared, the queue is reverted and merged, and the numbering restarts. -/
def resyncOwner (body : List Byte) (s : State) : Answer :=
  match body with
  | [] =>
      (State.evaluate ((s.withNq s.nq.resync).withMlk
        { s.mlk with saved := none, sender := Sender.initial })).accept []
  | _ :: _ => s.refuse .badLength

/-- RESYNC (R162, R163). -/
def execResync (s : State) : Host.Outcome State Fault Refusal := .next (s.whenLive (s.execute .resync resyncOwner))

end Sys2Proof.Machine
end

