-- ==== Sys2Proof/Machine/LinkSteps.lean ====
section
/-! DEFINITION. The receiver's and the transmitter's events, and the frames the dispatcher answers without an owner
(R132 to R144). -/

namespace Sys2Proof.Machine

/-- The receiver replaced. -/
def Mlk.withReceiver (m : Mlk) (x : Receiver) : Mlk := { m with receiver := x }

/-- START_BIT (R132, R137): the gap timer is cancelled and the reception of a character begins. Not looked for inside a
character, or after a framing fault until RXD has been at mark. -/
def execStartBit (s : State) : Host.Outcome State Fault Refusal :=
  .next (s.whenLive
    (if s.mlk.receiver.inCharacter || s.mlk.receiver.awaitMark then s
    else s.withMlk (s.mlk.withReceiver { s.mlk.receiver with inCharacter := true, gapTimer := false })))

/-- CHARACTER_RECEIVED (R132, R134): the character whose start bit was seen is taken in the present phase. -/
def execCharacterReceived (byte : Byte) (s : State) : Host.Outcome State Fault Refusal :=
  .next (s.whenLive (if s.mlk.receiver.inCharacter then s.withMlk (s.mlk.receive byte) else s))

/-- The receiver expects the length byte (R134). -/
def Receiving.atLength : Receiving → Bool
  | .length _ _ => true
  | .hunt | .kind | .tag _ | .body _ _ _ _ | .checkHigh _ _ _ _ | .checkLow _ _ _ _ _ => false

/-- The receiver expects the second check byte (R134). -/
def Receiving.atLastCheck : Receiving → Bool
  | .checkLow _ _ _ _ _ => true
  | .hunt | .kind | .tag _ | .length _ _ | .body _ _ _ _ | .checkHigh _ _ _ _ => false

/-- LENGTH_ERROR (R135): the third header byte is received and is above 40. -/
def execLengthError (length : Byte) (s : State) : Host.Outcome State Fault Refusal :=
  .next (s.whenLive
    (if s.mlk.receiver.inCharacter && s.mlk.receiver.receiving.atLength && decide (Config.maxBody < length.toNat) then
      s.withMlk (s.mlk.receive length)
    else s))

/-- FRAME_RECEIVED (R136, R138): the second check byte is received. -/
def execFrameReceived (check : Byte) (s : State) : Host.Outcome State Fault Refusal :=
  .next (s.whenLive
    (if s.mlk.receiver.inCharacter && s.mlk.receiver.receiving.atLastCheck then s.withMlk (s.mlk.receive check) else s))

/-- FRAMING_FAULT (R132): the character is discarded, a frame in progress is aborted and counted, and the receiver waits for
mark. -/
def execFramingFault (s : State) : Host.Outcome State Fault Refusal :=
  .next (s.whenLive
    (if s.mlk.receiver.inCharacter then
      s.withMlk (s.mlk.abortFrame.withReceiver
        { s.mlk.abortFrame.receiver with inCharacter := false, awaitMark := true })
    else s))

/-- RXD_RETURN_TO_MARK (R132). -/
def execRxdReturnToMark (s : State) : Host.Outcome State Fault Refusal :=
  .next (s.whenLive (s.withMlk (s.mlk.withReceiver { s.mlk.receiver with awaitMark := false })))

/-- GAP_LIMIT_EXPIRY (R137): a running gap timer expires inside a frame. -/
def execGapLimitExpiry (s : State) : Host.Outcome State Fault Refusal :=
  .next (s.whenLive (if s.mlk.receiver.gapTimer then s.withMlk s.mlk.abortFrame else s))

/-- FRAME_SENT (R143, R144, R149): the frame being sent ends, and the next one is started. -/
def execFrameSent (s : State) : Host.Outcome State Fault Refusal :=
  .next (s.whenLive
    (if s.mlk.tx = .idle then s else (s.withMlk s.mlk.endFrame).startNext))

/-- BAD_KIND (R139): a frame of a non-request kind is answered with kind 0x80; the saved reply is not changed. -/
def execBadKind (s : State) : Host.Outcome State Fault Refusal :=
  .next (s.whenLive
    (match s.nextFrame with
    | none => s
    | some f =>
        if isRequestKind f.kind then s
        else
          (s.takeFrame.withMlk (s.takeFrame.mlk.queueReply
            { frame := { kind := 0x80, tag := f.tag, body := [Result.code .badKind] }, rateSwitch := none })).startNext))

/-- DUPLICATE (R139, R140): a copy of the saved reply is queued without a rate switch, and the duplicate is counted. -/
def execDuplicate (s : State) : Host.Outcome State Fault Refusal :=
  .next (s.whenLive
    (match s.nextFrame, s.mlk.saved with
    | some f, some saved =>
        if s.isDuplicate f then
          (s.takeFrame.withMlk ((s.takeFrame.mlk.count fun c => { c with duplicates := satInc c.duplicates }).queueReply
            { frame := saved, rateSwitch := none })).startNext
        else s
    | some _, none => s
    | none, _ => s))

end Sys2Proof.Machine
end

