-- ==== Sys2Proof/Machine/SourceSteps.lean ====
section
/-! DEFINITION. The source path: sample instants and level-change reports (R4 to R9, R41 to R46). -/

namespace Sys2Proof.Machine

/-- The filter length in use of an external source (R7). -/
def State.filterInUse (s : State) (e : External) : Byte := (s.rtu.record (External.toSource e)).filter

/-- The level-change report of an external source whose sample is accepted (R8). -/
def State.sampleReport (s : State) (src : Tbl 24 Level) (e : External) : LevelReport :=
  { source := External.toSource e, new := src.read e, previous := (s.scu.conditioners.read e).accepted,
    time := s.now }

/-- The external sources whose sample is accepted at a sample instant, in ascending number (R4 to R6). -/
def State.accepting (s : State) (src : Tbl 24 Level) : List External :=
  (allOf 24).filter fun e => (s.scu.conditioners.read e).accepts (s.filterInUse e) (src.read e)

/-- One sample instant: every source pin is filtered into its record, and each acceptance makes a report (R4 to R6, R8). -/
def State.sample (s : State) (src : Tbl 24 Level) : State :=
  { s with
    scu := { s.scu with
      conditioners := Tbl.build fun e => (s.scu.conditioners.read e).take (s.filterInUse e) (src.read e) }
    rtu := { s.rtu with
      reports := s.rtu.reports ++ (s.accepting src).map (s.sampleReport src) } }

/-- SAMPLE_INSTANT (R4). -/
def execSampleInstant (src : Tbl 24 Level) (s : State) : Host.Outcome State Fault Refusal :=
  .next (s.whenLive (s.sample src))

/-- LEVEL_CHANGE_REPORT (R8, R9): the RTU takes the oldest report of the source. -/
def execLevelChangeReport (source : Source) (s : State) : Host.Outcome State Fault Refusal :=
  .next (s.whenLive (s.applyRtu (s.rtu.takeOldestReport source)))

end Sys2Proof.Machine
end

