-- ==== Sys2Proof/Machine/SystemSteps.lean ====
section
/-! DEFINITION. The resets, the supply, the reference clock and the hub clock (R1, R172 to R176). -/

namespace Sys2Proof.Machine

/-! ### RSTN taken low, block by block -/

/-- A binding record when RSTN goes low: bound and IDLE, or unbound; again and held clear; the rest kept (R37). -/
def BindingRecord.cleared (x : BindingRecord) : BindingRecord :=
  { x with status := if x.isBound then .idle else .unbound, again := false, held := false }

/-- The RTU when RSTN goes low: every pending set empty, and reports not yet taken discarded (R37, R58). -/
def Rtu.cleared (r : Rtu) : Rtu :=
  { records := Tbl.build fun i => (r.records.read i).cleared, sets := Tbl.fill 8 [], reports := [] }

/-- The ALD when RSTN goes low (R75). -/
def Ald.cleared (a : Ald) : Ald :=
  { lines := Tbl.build fun l => (a.lines.read l).cleared, triggers := [], occupancy := [] }

/-- A requester record when RSTN goes low: DETACHED stays DETACHED, and an assigned requester becomes IDLE with its REQ level
recorded as LOW (R112). -/
def RequesterRecord.cleared (r : RequesterRecord) : RequesterRecord :=
  match r.assigned with
  | none => { r with state := .detached }
  | some _ => { r with state := .idle, reqLevel := .low }

/-- The GAR when RSTN goes low: settings and assignments are kept (R112). -/
def Gar.cleared (g : Gar) : Gar :=
  { requesters := Tbl.build fun q => (g.requesters.read q).cleared
    channels := Tbl.build fun c => ChannelRecord.initial (g.channels.read c).settings }

/-- The MLK when RSTN goes low: the four link settings are kept (R150, R151). -/
def Mlk.cleared (m : Mlk) : Mlk := Mlk.initial m.settings

/-- The part when RSTN is taken low: every block acts at that moment (R1, R16, R58, R75, R92, R112, R150, R175). -/
def State.enterReset (s : State) : State :=
  { s with
    tbu := { s.tbu with mode := .resetLow, hubClock := 0 }
    scu := Scu.initial
    rtu := s.rtu.cleared
    ald := s.ald.cleared
    nq := Nq.initial .resetLine
    gar := s.gar.cleared
    mlk := s.mlk.cleared }

/-! ### RSTN taken released -/

/-- A requester record at the release: the REQ level read, DONE level NONE, and BLOCKED with reason RESET when it is assigned
and its REQ is read HIGH (R112). -/
def RequesterRecord.released (r : RequesterRecord) (req : Level) : RequesterRecord :=
  { r with
    reqLevel := req
    doneLevel := none
    state := if r.assigned.isSome && decide (req = .high) then .blocked .reset else r.state }

/-- The GAR at the release (R112). -/
def Gar.released (g : Gar) (req : Pins) : Gar :=
  { g with requesters := Tbl.build fun q => (g.requesters.read q).released (req.read q) }

/-- The part at the release of RSTN: the REQ pins are read, the internal sources are evaluated, and the START frame starts
(R16, R112, R175, R176). -/
def State.leaveReset (s : State) (req : Pins) : State :=
  State.startNext (State.evaluate
    { s with tbu := { s.tbu with mode := .running }, gar := s.gar.released req })

/-! ### One increment of the hub clock -/

/-- The timers of a channel at an increment (R3). -/
def ChannelRecord.tick (x : ChannelRecord) : ChannelRecord :=
  { x with holdTimer := x.holdTimer.tick, settleTimer := x.settleTimer.tick }

/-- The hub clock increases by one, and every millisecond timer counts the increment (R1, R3). -/
def State.tick (s : State) : State :=
  { s with
    tbu := { s.tbu with hubClock := s.tbu.hubClock + 1 }
    gar := { s.gar with channels := Tbl.build fun c => (s.gar.channels.read c).tick }
    mlk := s.mlk.withSender { s.mlk.sender with timer := s.mlk.sender.timer.tick } }

/-! ### Meanings -/

/-- POWER_ON_RESET (R174, R176): every block takes its After power-on values; with RSTN high the START frame starts at once,
and with RSTN low the part stays in reset until RSTN_RELEASE. Power-on reset does not end while the clock is absent. -/
def execPowerOnReset (rstn : Level) (req : Pins) (s : State) : Host.Outcome State Fault Refusal :=
  .next (if s.tbu.refclk then
    match rstn with
    | .high => ((State.powerOn .running req).withPending s.pending).startNext
    | .low => (State.powerOn .resetLow req).withPending s.pending
  else s)

/-- RSTN_LOW (R175): RSTN is not taken while the reference clock is stopped. -/
def execRstnLow (s : State) : Host.Outcome State Fault Refusal := .next (s.whenLive s.enterReset)

/-- RSTN_RELEASE (R175, R176). -/
def execRstnRelease (req : Pins) (s : State) : Host.Outcome State Fault Refusal :=
  .next (if s.tbu.mode = .resetLow ∧ s.tbu.refclk = true then s.leaveReset req else s)

/-- REFCLK_STOP (R173): every block and every output keeps what it holds. -/
def execRefclkStop (s : State) : Host.Outcome State Fault Refusal := .next (s.withTbu { s.tbu with refclk := false })

/-- REFCLK_RETURN (R173): every block resumes from the state it held. -/
def execRefclkReturn (s : State) : Host.Outcome State Fault Refusal := .next (s.withTbu { s.tbu with refclk := true })

/-- HUB_CLOCK_INCREMENT (R1, R3). -/
def execHubClockIncrement (s : State) : Host.Outcome State Fault Refusal := .next (s.whenLive s.tick)

/-- SUPPLY_DIP (R174): a new power-on reset begins; every line is OFF, every GNT low and TXD at mark (R75, R100, R145). What
the blocks hold until its end is the model's choice (log 15): their power-on values, with an empty notice queue. -/
def execSupplyDip (s : State) : Host.Outcome State Fault Refusal :=
  .next
    { State.powerOn .powerOnReset (Tbl.fill 12 .low) with
      tbu := { mode := .powerOnReset, refclk := s.tbu.refclk, hubClock := 0 }
      nq := { queue := [], lossCount := 0, firstLossTime := none, posts := [] }
      pending := s.pending }

end Sys2Proof.Machine
end

