-- ==== Sys2Proof/Machine/Dispatch.lean ====
section
/-! DEFINITION. One arm per command: its meaning, or its rejection by name. -/

namespace Sys2Proof.Machine

def exec (i : Instr) (s : State) : Host.Outcome State Fault Refusal :=
  match i with
  | .powerOnReset rstn req => Sys2Proof.Machine.execPowerOnReset rstn req s
  | .rstnLow => Sys2Proof.Machine.execRstnLow s
  | .rstnRelease req => Sys2Proof.Machine.execRstnRelease req s
  | .refclkStop => Sys2Proof.Machine.execRefclkStop s
  | .refclkReturn => Sys2Proof.Machine.execRefclkReturn s
  | .sampleInstant src => Sys2Proof.Machine.execSampleInstant src s
  | .levelChangeReport source => Sys2Proof.Machine.execLevelChangeReport source s
  | .joinTrigger line => Sys2Proof.Machine.execJoinTrigger line s
  | .reminderTrigger line => Sys2Proof.Machine.execReminderTrigger line s
  | .occupancyChange line => Sys2Proof.Machine.execOccupancyChange line s
  | .widthTimerExpiry line => Sys2Proof.Machine.execWidthTimerExpiry line s
  | .gapTimerExpiry line => Sys2Proof.Machine.execGapTimerExpiry line s
  | .sourceEventPost => Sys2Proof.Machine.execSourceEventPost s
  | .grantEventPost => Sys2Proof.Machine.execGrantEventPost s
  | .channelSampleEvent channel req done => Sys2Proof.Machine.execChannelSampleEvent channel req done s
  | .holdTimerExpiry channel => Sys2Proof.Machine.execHoldTimerExpiry channel s
  | .settleTimerExpiry channel => Sys2Proof.Machine.execSettleTimerExpiry channel s
  | .framingFault => Sys2Proof.Machine.execFramingFault s
  | .lengthError length => Sys2Proof.Machine.execLengthError length s
  | .gapLimitExpiry => Sys2Proof.Machine.execGapLimitExpiry s
  | .frameReceived check => Sys2Proof.Machine.execFrameReceived check s
  | .goodFrameIndication noticeFirst => Sys2Proof.Machine.execGoodFrameIndication noticeFirst s
  | .badKind => Sys2Proof.Machine.execBadKind s
  | .duplicate => Sys2Proof.Machine.execDuplicate s
  | .status => Sys2Proof.Machine.execStatus s
  | .bind => Sys2Proof.Machine.execBind s
  | .unbind => Sys2Proof.Machine.execUnbind s
  | .sourceQuery => Sys2Proof.Machine.execSourceQuery s
  | .maskOn => Sys2Proof.Machine.execMaskOn s
  | .maskOff => Sys2Proof.Machine.execMaskOff s
  | .service => Sys2Proof.Machine.execService s
  | .pendingList => Sys2Proof.Machine.execPendingList s
  | .lineSet => Sys2Proof.Machine.execLineSet s
  | .lineQuery => Sys2Proof.Machine.execLineQuery s
  | .channelSet => Sys2Proof.Machine.execChannelSet s
  | .assign => Sys2Proof.Machine.execAssign s
  | .channelQuery => Sys2Proof.Machine.execChannelQuery s
  | .revoke => Sys2Proof.Machine.execRevoke s
  | .noticeAck => Sys2Proof.Machine.execNoticeAck s
  | .linkSet => Sys2Proof.Machine.execLinkSet s
  | .resync => Sys2Proof.Machine.execResync s
  | .frameSent => Sys2Proof.Machine.execFrameSent s
  | .retransmitTimerExpiry => Sys2Proof.Machine.execRetransmitTimerExpiry s
  | .hubClockIncrement => Sys2Proof.Machine.execHubClockIncrement s
  | .characterReceived byte => Sys2Proof.Machine.execCharacterReceived byte s
  | .startBit => Sys2Proof.Machine.execStartBit s
  | .rxdReturnToMark => Sys2Proof.Machine.execRxdReturnToMark s
  | .supplyDip => Sys2Proof.Machine.execSupplyDip s

end Sys2Proof.Machine
end

