-- ==== Sys2Proof/Safety.lean ====
section
/-! DEFINITION. The words in which statements about the machine are made: what it is for a request to be taken and
answered, and the laws of the part that hold between steps. -/

namespace Sys2Proof.Machine

/-! ### Requests -/

/-- The kind of request a command takes; none for a command that is no request (R169). -/
def requestKind : Instr → Option RequestKind
  | .status => some .status
  | .bind => some .bind
  | .unbind => some .unbind
  | .sourceQuery => some .sourceQuery
  | .maskOn | .maskOff => some .mask
  | .service => some .service
  | .pendingList => some .pendingList
  | .lineSet => some .lineSet
  | .lineQuery => some .lineQuery
  | .channelSet => some .channelSet
  | .assign => some .assign
  | .channelQuery => some .channelQuery
  | .revoke => some .revoke
  | .noticeAck => some .noticeAck
  | .linkSet => some .linkSet
  | .resync => some .resync
  | .powerOnReset _ _ | .rstnLow | .rstnRelease _ | .refclkStop | .refclkReturn | .sampleInstant _
  | .levelChangeReport _ | .joinTrigger _ | .reminderTrigger _ | .occupancyChange _ | .widthTimerExpiry _
  | .gapTimerExpiry _ | .sourceEventPost | .grantEventPost | .channelSampleEvent _ _ _ | .holdTimerExpiry _
  | .settleTimerExpiry _ | .framingFault | .lengthError _ | .gapLimitExpiry | .frameReceived _
  | .goodFrameIndication _ | .badKind | .duplicate | .frameSent | .retransmitTimerExpiry | .hubClockIncrement
  | .characterReceived _ | .startBit | .rxdReturnToMark | .supplyDip => none

/-- The dispatcher can take this frame: events are taken, the reply queue has room, and the frame is the oldest in the receive
buffer, with no indication of it outstanding (R138, R139). -/
abbrev State.ready (s : State) (f : Frame) : Prop :=
  s.live = true ∧ s.mlk.replies.length < 2 ∧ s.mlk.buffer.head? = some { frame := f, indication := false }

/-- The dispatcher executes this frame as a request of this kind: it is ready, of the kind, and no duplicate (R139). -/
abbrev State.takes (s : State) (kind : RequestKind) (f : Frame) : Prop :=
  s.ready f ∧ f.kind = kind.code ∧ (kind = .resync ∨ s.mlk.saved.map Frame.tag ≠ some f.tag)

/-- The reply frame of a request (R133, R170). -/
def replyOf (f : Frame) (result : Result) (fields : List Byte) : Frame :=
  { kind := f.kind + 0x80, tag := f.tag, body := result.code :: fields }

/-- The state with the taken frame out of the receive buffer and a reply formed, saved and queued; an idle transmitter
starts it (R139, R141, R143, R144). -/
def State.answered (s : State) (f : Frame) (result : Result) (fields : List Byte) (rateSwitch : Option RateCode) : State :=
  { s with mlk := { s.mlk with
      buffer := s.mlk.buffer.tail
      replies := s.mlk.replies ++ [{ frame := replyOf f result fields, rateSwitch := rateSwitch }]
      saved := some (replyOf f result fields)
      tx := if s.mlk.tx = .idle then .reply else s.mlk.tx } }

/-- The number of body bytes of a request kind: the column N of R169. NOTICE_ACK has one more than its count, 2 to 5. -/
def bodyLengthFits (kind : RequestKind) (body : List Byte) : Bool :=
  match kind with
  | .status | .unbind | .sourceQuery | .service | .pendingList | .lineQuery | .channelQuery | .revoke =>
      decide (body.length = 1)
  | .bind | .lineSet => decide (body.length = 7)
  | .mask => decide (body.length = 2)
  | .channelSet => decide (body.length = 9)
  | .assign => decide (body.length = 3)
  | .linkSet => decide (body.length = 4)
  | .resync => decide (body.length = 0)
  | .noticeAck =>
      match body with
      | [] => false
      | count :: numbers => decide (1 ≤ count.toNat) && decide (count.toNat ≤ 4) && decide (numbers.length = count.toNat)

/-- The code of a rate (R168). -/
def rateByte : RateCode → Byte
  | .r57600 => 0
  | .r115200 => 1
  | .r230400 => 2
  | .r460800 => 3
  | .r921600 => 4

/-- The commands in which the characters of these bytes come in on RXD one after another (R132). -/
def hear (bytes : List Byte) : List Instr := bytes.flatMap fun b => [.startBit, .characterReceived b]

/-! ### Binding records and pending sets -/

/-- The law of a binding record (R17 to R19, R21, R42, R52). -/
abbrev BindingRecord.lawful (source : Source) (x : BindingRecord) : Prop :=
  (x.status = .unbound → x = BindingRecord.unbound) ∧
  (x.status ≠ .unbound → x.target = .reportOnly → x.status = .idle ∧ x.cls = .shared ∧ x.report = true) ∧
  (24 ≤ source.val → x.sense = .levelHigh ∧ x.filter = 0) ∧
  (x.mask = true → x.status ≠ .pending) ∧
  (x.held = true → x.mask = true) ∧
  (x.again = true → x.status = .pending)

/-- No line carries both an EXCLUSIVE binding and any other binding (R25). -/
abbrev Rtu.exclusivityHolds (r : Rtu) : Prop :=
  ∀ (l : Line) (a b : Source), a ≠ b → (r.record a).boundTo l = true → (r.record b).boundTo l = true →
    (r.record a).cls = .shared

/-- The law of the binding table and the pending sets (R17, R38). -/
abbrev Rtu.lawful (r : Rtu) : Prop :=
  (∀ source : Source, (r.record source).lawful source) ∧
  (∀ (l : Line) (source : Source), source ∈ r.sets.read l ↔
    (r.record source).status = .pending ∧ (r.record source).target = .line l) ∧
  (∀ l : Line, (r.sets.read l).Nodup) ∧
  (∀ l : Line, (r.sets.read l).Pairwise fun m n => (r.record m).priority ≤ (r.record n).priority)

/-- The place a source takes when it joins the pending set of a line: behind `ahead`, every member of the same or a
lower-numbered priority, and ahead of `behind`, every member of a higher-numbered one (R20, R39). -/
abbrev Rtu.joinsBetween (r : Rtu) (source : Source) (l : Line) (ahead behind : List Source) : Prop :=
  r.sets.read l = ahead ++ behind ∧
  (∀ m ∈ ahead, (r.record m).priority ≤ (r.record source).priority) ∧
  (∀ m ∈ behind, (r.record source).priority < (r.record m).priority)

/-- `rep` is the oldest report of its source, between `before` and `after` (R8). -/
abbrev Rtu.oldestReport (r : Rtu) (before : List LevelReport) (rep : LevelReport) (after : List LevelReport) : Prop :=
  r.reports = before ++ rep :: after ∧ ∀ x ∈ before, x.source ≠ rep.source

/-- Every report of the source has been taken. -/
abbrev Rtu.noReportOf (r : Rtu) (source : Source) : Prop := ∀ x ∈ r.reports, x.source ≠ source

/-- `t` is the state in which `n` commands LEVEL_CHANGE_REPORT of the source, one after another, leave `s` (log 8). -/
def State.takesReports (source : Source) : Nat → State → State → Prop
  | 0, s, t => t = s
  | n + 1, s, t => ∃ u, exec (.levelChangeReport source) s = .next u ∧ State.takesReports source n u t

/-- The law of levels: a source has had no event and made no report before its first accepted level, so that one whose
accepted level is UNKNOWN is not PENDING, holds no event and has no report waiting (R4, R6, R8, R9). -/
abbrev State.eventsHaveLevels (s : State) : Prop :=
  ∀ source : Source, s.scu.level source = .unknown →
    (s.rtu.record source).status ≠ .pending ∧ (s.rtu.record source).held = false ∧ s.rtu.noReportOf source

/-! ### Attention lines -/

/-- The command in which a line takes a trigger of this kind. -/
def triggerCommand (kind : TriggerKind) (line : Line) : Instr :=
  match kind with
  | .join => .joinTrigger line
  | .reminder => .reminderTrigger line

/-- The law of the settings, phase and output of one line (R59 to R62, R69). -/
abbrev LineRecord.lawful (x : LineRecord) : Prop :=
  x.settings.width ≠ 0 ∧ x.settings.gap ≠ 0 ∧
  ¬ (x.settings.drive = .openDrain ∧ x.settings.polarity = .activeHigh) ∧
  (x.settings.enable = false → x.phase = .quiet ∧ x.output = .off) ∧
  (x.settings.mode = .level → x.phase = .quiet) ∧
  (x.phase = .quiet → x.owed = false) ∧
  (x.settings.enable = true → x.output ≠ .off) ∧
  (x.settings.enable = true → x.settings.mode = .pulse →
    (x.output = .asserted ↔ x.phase = .pulse x.settings.width) ∧
    (x.output = .released ↔ x.phase = .quiet ∨ x.phase = .gap x.settings.gap))

/-- The law of the lines: each line's own law, and a LEVEL-mode line whose set's occupancy changes have all been taken is
asserted exactly when it is enabled and its pending set is nonempty (R61). -/
abbrev State.linesLawful (s : State) : Prop :=
  ∀ l : Line, (s.ald.lines.read l).lawful ∧
    (l ∉ s.ald.occupancy → (s.ald.lines.read l).settings.mode = .level →
      ((s.ald.lines.read l).output = .asserted ↔
        (s.ald.lines.read l).settings.enable = true ∧ s.rtu.sets.read l ≠ []))

/-! ### The notice queue and the notice sender -/

/-- The entry is a START entry. -/
def Entry.isStart (e : Entry) : Bool :=
  match e.body with
  | .start _ _ _ _ => true
  | .sourceEvent _ _ _ _ | .grantEvent _ | .loss _ _ => false

/-- The law of the notice queue (R76, R77, R82, R83, R86, R92, R154). -/
abbrev Nq.lawful (n : Nq) : Prop :=
  n.queue.length ≤ 32 ∧
  n.queue = n.queue.filter (fun e => !e.isUnsent) ++ n.queue.filter Entry.isUnsent ∧
  n.inFlight.Nodup ∧ 0 ∉ n.inFlight ∧ n.inFlight.length ≤ 4 ∧
  (∀ source : Source, (n.queue.filter (Entry.isUnsentOf source)).length ≤ 1) ∧
  (n.queue.filter Entry.isUnsentLoss).length ≤ 1 ∧
  (∀ e ∈ n.queue.tail, e.isStart = false) ∧
  (n.firstLossTime = none ↔ n.lossCount = 0)

/-- The law of the link settings (08 section 8.7). -/
abbrev LinkSettings.lawful (x : LinkSettings) : Prop :=
  1 ≤ x.window.toNat ∧ x.window.toNat ≤ 4 ∧ 1 ≤ x.interval.toNat ∧ 1 ≤ x.retryLimit.toNat ∧ x.retryLimit.toNat ≤ 15

/-- The law of the notice sender beside the queue (R151, R154, R155, R157). A STALLED link has an entry IN_FLIGHT, and every
request frame in the receive buffer is still to end the stall. -/
abbrev State.senderLawful (s : State) : Prop :=
  s.mlk.sender.nextNumber ≠ 0 ∧ s.mlk.sender.retryCount ≤ 15 ∧
  s.mlk.sender.roundList.Sublist s.nq.inFlight ∧
  (s.mlk.sender.link = .running → (s.mlk.sender.timer = .stopped ↔ s.nq.inFlight = [])) ∧
  (s.mlk.sender.link = .stalled → s.mlk.sender.timer = .stopped ∧ s.mlk.sender.roundList = [] ∧ s.nq.inFlight ≠ [] ∧
    ∀ b ∈ s.mlk.buffer, isRequestKind b.frame.kind = true → b.indication = true)

/-- The law of notice delivery: the queue, the settings and the sender. -/
abbrev State.noticesLawful (s : State) : Prop := s.nq.lawful ∧ s.mlk.settings.lawful ∧ s.senderLawful

/-! ### Grant channels and requesters -/

/-- The requester is WAITING. -/
def RequesterState.isWaiting : RequesterState → Bool
  | .waiting _ _ => true
  | .detached | .idle | .granted _ _ | .blocked _ => false

/-- The requester is GRANTED. -/
def RequesterState.isGranted : RequesterState → Bool
  | .granted _ _ => true
  | .detached | .idle | .waiting _ _ | .blocked _ => false

/-- The law of a requester record (R96). -/
abbrev RequesterRecord.lawful (r : RequesterRecord) : Prop :=
  (r.state = .detached ↔ r.assigned = none) ∧
  (r.state = .idle → r.reqLevel = .low) ∧
  (r.state ≠ .detached → r.state ≠ .idle → r.reqLevel = .high)

/-- In a wait queue `m` may stand ahead of `n` (R113, R116): under PRIORITY promoted members stand first, and the others in
the order of their bands. -/
def Gar.mayPrecede (g : Gar) (policy : Policy) (m n : Requester) : Bool :=
  match policy with
  | .arrival => true
  | .priority =>
      (g.requester m).state.isPromoted ||
        (!(g.requester n).state.isPromoted && decide ((g.requester m).priority ≤ (g.requester n).priority))

/-- The law of the wait queue of one channel (R97, R98, R113, R115, R116). -/
abbrev Gar.queueLawful (g : Gar) (c : Channel) : Prop :=
  (g.channel c).queue.Nodup ∧
  (g.channel c).queue.Pairwise (fun m n => g.mayPrecede (g.channel c).settings.policy m n = true) ∧
  (∀ q : Requester, q ∈ (g.channel c).queue ↔
    (g.requester q).assigned = some c ∧ (g.requester q).state.isWaiting = true) ∧
  (∀ q ∈ (g.channel c).queue,
    (g.requester q).state.passes ≤ (g.channel c).settings.ageLimit.toNat ∧
    ((g.requester q).state.isPromoted = true ↔
      (g.channel c).settings.policy = .priority ∧ 0 < (g.channel c).settings.ageLimit.toNat ∧
        (g.requester q).state.passes = (g.channel c).settings.ageLimit.toNat))

/-- The law of the settings, holder, phase and timers of one channel (R97, R98, R117). -/
abbrev Gar.phaseLawful (g : Gar) (c : Channel) : Prop :=
  (g.channel c).settings.settleLimit ≠ 0 ∧ (g.channel c).settings.ageLimit.toNat ≤ 15 ∧
  (∀ q : Requester, (g.channel c).phase = .held q ↔
    (g.requester q).assigned = some c ∧ (g.requester q).state.isGranted = true) ∧
  (∀ q : Requester, (g.channel c).phase = .settling (some q) →
    (g.requester q).assigned = some c ∧ (g.requester q).isBlocked = true) ∧
  ((g.channel c).holdTimer ≠ .stopped ↔
    (g.channel c).phase.code = 1 ∧ 0 < (g.channel c).settings.holdLimit.toNat) ∧
  ((g.channel c).settleTimer ≠ .stopped ↔ (g.channel c).phase.code = 2) ∧
  ¬ ((g.channel c).settings.isOpen = true ∧ (g.channel c).phase = .idle ∧ (g.channel c).queue ≠ [])

/-- The law of the grant arbiter. -/
abbrev Gar.lawful (g : Gar) : Prop :=
  (∀ q : Requester, (g.requester q).lawful) ∧ (∀ c : Channel, g.queueLawful c) ∧ (∀ c : Channel, g.phaseLawful c)

/-- The law of the grant arbiter, and that no requester takes part in arbitration during a reset (R111, R112). -/
abbrev State.grantsLawful (s : State) : Prop :=
  s.gar.lawful ∧ (s.tbu.mode ≠ .running → ∀ q : Requester,
    (s.gar.requester q).state = .detached ∨ (s.gar.requester q).state = .idle)

/-! ### Internal sources and the link -/

/-- The level of every internal source is the level of its condition (R12 to R15). -/
abbrev State.internalAgrees (s : State) : Prop := ∀ i : Internal, s.scu.internal.read i = s.conditionLevel i

/-- The law of a frame in progress (R134, R135). -/
def Receiving.lawful : Receiving → Bool
  | .hunt | .kind | .tag _ | .length _ _ => true
  | .body _ _ n sofar => decide (n.toNat ≤ 40) && decide (sofar.length < n.toNat)
  | .checkHigh _ _ n bytes | .checkLow _ _ n bytes _ => decide (n.toNat ≤ 40) && decide (bytes.length = n.toNat)

/-- The law of the receiver, the receive buffer, the reply queue and the transmitter (R131, R134, R137, R138, R143, R144,
R149): the rate setting is the last rate switch still to come, or the line rate when none is. -/
abbrev Mlk.lawful (m : Mlk) : Prop :=
  m.receiver.receiving.lawful = true ∧
  (m.receiver.gapTimer = true → m.receiver.receiving ≠ .hunt ∧ m.receiver.inCharacter = false) ∧
  m.buffer.length ≤ 2 ∧ (∀ b ∈ m.buffer, b.frame.body.length ≤ 40) ∧
  m.replies.length ≤ 2 ∧ (m.tx = .idle → m.replies = []) ∧ (m.tx = .reply → m.replies ≠ []) ∧
  (m.replies.filterMap Reply.rateSwitch).getLast?.getD m.lineRate = m.settings.rate

end Sys2Proof.Machine
end

