-- ==== Sys2Proof/Certificates/Slice0/Obligations.lean ====
section
/-! DEFINITION. The statements about the EG3012, for the provers. Each is a proposition named Obligations.<Name>; the rules
and sections of the spec it rests on stand in OBLIGATIONS.json. "The SCU evaluates" is `State.evaluate` and "the transmitter
starts its next frame" is `State.startNext`; what these two do is stated by Obligations.InternalSourcesFollowConditions,
Obligations.TransmitterStartsReplyThenResend and Obligations.FirstSendingNumbersEntry. What a removal from the notice queue and
a loss do is stated by Obligations.LossIsCountedAndCarried, and what a changed filter length does by
Obligations.SamplesAreFilteredAndReported. -/

open Sys2Proof Sys2Proof.Machine

/-! ### The step, counts and timers -/

/-- The step takes the command at the front of the queue and executes it on the queue's rest. On an empty queue the block
idles: that clause is the model's choice (log 17). -/
def Obligations.StepTakesFrontCommand : Prop :=
  (∀ (c : Instr) (s : State) (rest : List Instr), step (s.withPending (c :: rest)) = exec c (s.withPending rest)) ∧
  (∀ s : State, s.pending = [] → step s = .next s)

/-- No command stops the part: every command, in every state, answers a next state, and leaves the queue of commands as it
is. That one whose event cannot occur answers next is the model's choice (log 4). -/
def Obligations.EveryCommandAnswersNextState : Prop :=
  ∀ (c : Instr) (s : State), ∃ t, exec c s = .next t ∧ t.pending = s.pending

/-- A saturating count stops at the greatest value of its width, and an elapsed time is the difference of two clock values
modulo 2^32, stopped at 65535. A millisecond timer of length n is not due up to the nth increment after its start and is due
at the (n+1)th. -/
def Obligations.CountsSaturateAndTimersExpire : Prop :=
  ((∀ (w : Nat) (a b : BitVec w), (satAdd a b).toNat = min (a.toNat + b.toNat) (2 ^ w - 1)) ∧
   (∀ (w : Nat) (a : BitVec w), (satInc a).toNat = min (a.toNat + 1) (2 ^ w - 1)) ∧
   (∀ now start : Time, (elapsed now start).toNat = min (now - start).toNat 65535)) ∧
  (∀ n k : Nat, (k ≤ n → (MsTimer.tick^[k] (MsTimer.start n)).due = false) ∧
     (MsTimer.tick^[n + 1] (MsTimer.start n)).due = true)

/-- HUB_CLOCK_INCREMENT: the clock increases by one modulo 2^32, every millisecond timer counts the increment, and nothing
else changes. The hub clock changes at an increment and at a reset alone: no request sets it. -/
def Obligations.HubClockCountsIncrements : Prop :=
  (∀ s : State, s.live = true → exec .hubClockIncrement s = .next { s with
     tbu := { s.tbu with hubClock := s.tbu.hubClock + 1 }
     gar := { s.gar with
       channels := Tbl.build fun c => { s.gar.channel c with
         holdTimer := (s.gar.channel c).holdTimer.tick
         settleTimer := (s.gar.channel c).settleTimer.tick } }
     mlk := { s.mlk with sender := { s.mlk.sender with timer := s.mlk.sender.timer.tick } } }) ∧
  (∀ (c : Instr) (s t : State), exec c s = .next t → t.tbu.hubClock = s.tbu.hubClock ∨
     (c = .hubClockIncrement ∧ t.tbu.hubClock = s.tbu.hubClock + 1) ∨
     (t.tbu.hubClock = 0 ∧ (c = .rstnLow ∨ c = .supplyDip ∨ ∃ rstn req, c = .powerOnReset rstn req)))

/-! ### Resets, supply and reference clock -/

/-- The values of State.reset, written out. That it stands after the start of the START frame is log 1, and that the REQ pins
were read LOW is log 2. -/
def Obligations.ResetValues : Prop :=
  let s := State.reset
  s.tbu = { mode := .running, refclk := true, hubClock := 0 } ∧
  (∀ e : External, s.scu.conditioners.read e = { lastSample := none, accepted := .unknown, runLength := 0 }) ∧
  (∀ i : Internal, s.scu.internal.read i = .low) ∧
  (∀ source : Source, s.rtu.record source =
    { target := .line 0, cls := .exclusive, priority := 0, sense := .levelHigh, filter := 0, report := false,
      mask := false, status := .unbound, again := false, held := false }) ∧
  (∀ l : Line, s.rtu.sets.read l = []) ∧ s.rtu.reports = [] ∧
  (∀ l : Line, s.ald.lines.read l =
    { settings := { enable := false, mode := .level, polarity := .activeLow, drive := .pushPull, width := 8, gap := 8 },
      phase := .quiet, owed := false, output := .off }) ∧
  s.ald.triggers = [] ∧ s.ald.occupancy = [] ∧
  s.nq = { queue := [{ body := .start .powerOn 0xE3 1 0, delivery := .inFlight 1 }], lossCount := 0,
           firstLossTime := none, posts := [] } ∧
  (∀ q : Requester, s.gar.requester q =
    { assigned := none, priority := 3, state := .detached, reqLevel := .low, doneLevel := none }) ∧
  (∀ c : Channel, s.gar.channel c =
    { settings := { isOpen := false, quota := 0, policy := .arrival, holdLimit := 0, settleLimit := 10, ageLimit := 0,
                    reportGrants := false },
      phase := .idle, queue := [], holdTimer := .stopped, settleTimer := .stopped, grants := 0, timeouts := 0,
      revokes := 0, lateDones := 0, strayDones := 0 }) ∧
  s.mlk =
    { receiver := { receiving := .hunt, gapTimer := false, inCharacter := false, awaitMark := false },
      buffer := [], replies := [], saved := none,
      tx := .notice { kind := 0x40, tag := 1, body := [0, 0xE3, 1, 0, 0, 0, 0] },
      settings := { rate := .r115200, window := 4, interval := 20, retryLimit := 5 }, lineRate := .r115200,
      counters := { checkErrors := 0, gapAborts := 0, lengthErrors := 0, overruns := 0, duplicates := 0, rounds := 0,
                    stalls := 0 },
      sender := { link := .running, nextNumber := 2, retryCount := 0, timer := .running 201, roundList := [] } } ∧
  s.pending = []

/-- POWER_ON_RESET: every block takes the values of State.reset (written out by Obligations.ResetValues), with the REQ levels
read then. With RSTN high START starts as number 1 at once; with RSTN low the part stays in reset with START UNSENT as its
only entry. SUPPLY_DIP: a new power-on reset begins, with every attention pin at high impedance, every GNT low and TXD at
mark. What else the blocks hold until its end is the model's choice (log 15). -/
def Obligations.PowerOnResetAndSupplyDip : Prop :=
  (∀ (req : Pins) (s : State), s.tbu.refclk = true →
     let gar : Gar :=
       { requesters := Tbl.build fun q =>
           { assigned := none, priority := 3, state := .detached, reqLevel := req.read q, doneLevel := none }
         channels := State.reset.gar.channels }
     exec (.powerOnReset .high req) s = .next { State.reset with gar := gar, pending := s.pending } ∧
     exec (.powerOnReset .low req) s = .next { State.reset with
       tbu := { mode := .resetLow, refclk := true, hubClock := 0 }
       gar := gar
       nq := { State.reset.nq with queue := [{ body := .start .powerOn 0xE3 1 0, delivery := .unsent }] }
       mlk := { State.reset.mlk with
         tx := .idle
         sender := { link := .running, nextNumber := 1, retryCount := 0, timer := .stopped, roundList := [] } }
       pending := s.pending }) ∧
  (∀ s : State, ∃ t, exec .supplyDip s = .next t ∧
     t.tbu = { mode := .powerOnReset, refclk := s.tbu.refclk, hubClock := 0 } ∧
     (∀ l : Line, t.linePin l = .highImpedance) ∧ (∀ q : Requester, t.gnt q = .low) ∧ t.txFrame = none ∧
     t.pending = s.pending)

/-- RSTN_LOW: working state is cleared in every block and configuration is kept. That the wait for mark ends and that a
DETACHED requester's REQ level is kept until the release are the model's readings (logs 21 and 22). -/
def Obligations.RstnLowKeepsConfigurationOnly : Prop :=
  ∀ s : State, s.live = true → ∃ t, exec .rstnLow s = .next t ∧
    t.tbu = { mode := .resetLow, refclk := true, hubClock := 0 } ∧
    t.scu = State.reset.scu ∧
    (∀ source : Source, t.rtu.record source = { s.rtu.record source with
      status := if (s.rtu.record source).status = .unbound then .unbound else .idle
      again := false
      held := false }) ∧
    (∀ l : Line, t.rtu.sets.read l = []) ∧ t.rtu.reports = [] ∧
    (∀ l : Line, t.ald.lines.read l =
      { settings := (s.ald.lines.read l).settings, phase := .quiet, owed := false,
        output := if (s.ald.lines.read l).settings.enable then .released else .off }) ∧
    t.ald.triggers = [] ∧ t.ald.occupancy = [] ∧
    t.nq = { queue := [{ body := .start .resetLine 0xE3 1 0, delivery := .unsent }], lossCount := 0,
             firstLossTime := none, posts := [] } ∧
    (∀ q : Requester, t.gar.requester q = { s.gar.requester q with
      state := if (s.gar.requester q).assigned = none then .detached else .idle
      reqLevel := if (s.gar.requester q).assigned = none then (s.gar.requester q).reqLevel else .low }) ∧
    (∀ c : Channel, t.gar.channel c =
      { settings := (s.gar.channel c).settings, phase := .idle, queue := [], holdTimer := .stopped,
        settleTimer := .stopped, grants := 0, timeouts := 0, revokes := 0, lateDones := 0, strayDones := 0 }) ∧
    t.mlk =
      { receiver := { receiving := .hunt, gapTimer := false, inCharacter := false, awaitMark := false },
        buffer := [], replies := [], saved := none, tx := .idle, settings := s.mlk.settings,
        lineRate := s.mlk.settings.rate,
        counters := { checkErrors := 0, gapAborts := 0, lengthErrors := 0, overruns := 0, duplicates := 0, rounds := 0,
                      stalls := 0 },
        sender := { link := .running, nextNumber := 1, retryCount := 0, timer := .stopped, roundList := [] } } ∧
    t.pending = s.pending

/-- RSTN_RELEASE: the REQ pins are read, an assigned requester read HIGH becomes BLOCKED with reason RESET, the SCU
evaluates, and the transmitter starts its next frame. An RSTN pulse ends with START RESET_LINE IN_FLIGHT as number 1, its
frame on TXD, and the retransmit timer running with the kept interval. -/
def Obligations.RstnReleaseStartsNumbering : Prop :=
  (∀ (req : Pins) (s : State), s.tbu.mode = .resetLow → s.tbu.refclk = true →
     exec (.rstnRelease req) s = .next (State.startNext (State.evaluate { s with
       tbu := { s.tbu with mode := .running }
       gar := { s.gar with requesters := Tbl.build fun q => { s.gar.requester q with
         reqLevel := req.read q
         doneLevel := none
         state :=
           if (s.gar.requester q).assigned ≠ none ∧ req.read q = .high then .blocked .reset
           else (s.gar.requester q).state } } }))) ∧
  (∀ (req : Pins) (s : State), s.live = true → 1 ≤ s.mlk.settings.window.toNat →
     ∃ t u, exec .rstnLow s = .next t ∧ exec (.rstnRelease req) t = .next u ∧
       u.nq.queue = [{ body := .start .resetLine 0xE3 1 0, delivery := .inFlight 1 }] ∧
       u.txFrame = some { kind := 0x40, tag := 1, body := [1, 0xE3, 1, 0, 0, 0, 0] } ∧
       u.tbu.hubClock = 0 ∧ u.mlk.lineRate = s.mlk.settings.rate ∧
       u.mlk.sender = { link := .running, nextNumber := 2, retryCount := 0,
                        timer := .start (10 * s.mlk.settings.interval.toNat), roundList := [] })

/-- REFCLK_STOP and REFCLK_RETURN: every block keeps the state it holds, and the outputs with it. While the reference clock
is stopped no event is taken, and neither is one while the part is in a reset, but for the events that end it (logs 4 and
16). -/
def Obligations.ReferenceClockStopHoldsState : Prop :=
  (∀ s : State, exec .refclkStop s = .next { s with tbu := { s.tbu with refclk := false } } ∧
     exec .refclkReturn s = .next { s with tbu := { s.tbu with refclk := true } }) ∧
  ((∀ (c : Instr) (s : State), s.tbu.refclk = false → c ≠ .refclkReturn → c ≠ .supplyDip → exec c s = .next s) ∧
   (∀ (c : Instr) (s : State), s.tbu.mode ≠ .running → c ≠ .refclkStop → c ≠ .refclkReturn → c ≠ .supplyDip →
     (∀ rstn req, c ≠ .powerOnReset rstn req) → (∀ req, c ≠ .rstnRelease req) → exec c s = .next s))

/-- The pins of a line by its output state, drive and polarity, and GNT high exactly for the holder of a channel. -/
def Obligations.OutputPinsFollowState : Prop :=
  (∀ x : LineRecord,
    (x.output = .off → x.pin = .highImpedance) ∧
    (x.settings.drive = .pushPull → x.settings.polarity = .activeLow →
      (x.output = .released → x.pin = .driven .high) ∧ (x.output = .asserted → x.pin = .driven .low)) ∧
    (x.settings.drive = .pushPull → x.settings.polarity = .activeHigh →
      (x.output = .released → x.pin = .driven .low) ∧ (x.output = .asserted → x.pin = .driven .high)) ∧
    (x.settings.drive = .openDrain → x.settings.polarity = .activeLow →
      (x.output = .released → x.pin = .highImpedance) ∧ (x.output = .asserted → x.pin = .driven .low))) ∧
  (∀ s : State, s.gar.lawful → ∀ q : Requester, s.gnt q = .high ↔ ∃ c : Channel, (s.gar.channel c).phase = .held q)

/-! ### Sources -/

/-- SAMPLE_INSTANT at a source whose accepted level is LOW or HIGH, and at one whose accepted level is UNKNOWN. It makes one
report for each source whose accepted level it changes, with the level before and after and the present time, and changes
nothing but the conditioner records and the reports. A change of the filter length in use sets the run length of an external
source to 0 and keeps its accepted level and last sample; an unchanged length keeps the run length. -/
def Obligations.SamplesAreFilteredAndReported : Prop :=
  (∀ (src : Tbl 24 Level) (s : State), s.live = true → ∃ t, exec (.sampleInstant src) s = .next t ∧
     ∀ (e : External) (level : Level), (s.scu.conditioners.read e).accepted = .known level →
       let old := s.scu.conditioners.read e
       let new := t.scu.conditioners.read e
       let f := (s.rtu.record (External.toSource e)).filter.toNat
       new.lastSample = some (src.read e) ∧
       (src.read e = level → new.accepted = old.accepted ∧ new.runLength = 0) ∧
       (src.read e ≠ level → old.runLength + 1 < f + 1 →
         new.accepted = old.accepted ∧ new.runLength = old.runLength + 1) ∧
       (src.read e ≠ level → f + 1 ≤ old.runLength + 1 →
         new.accepted = .known (src.read e) ∧ new.runLength = 0)) ∧
  (∀ (src : Tbl 24 Level) (s : State), s.live = true → ∃ t new, exec (.sampleInstant src) s = .next t ∧
     t = { s with scu := { s.scu with conditioners := t.scu.conditioners },
                  rtu := { s.rtu with reports := s.rtu.reports ++ new } } ∧
     (new.map LevelReport.source).Nodup ∧
     ∀ rep : LevelReport, rep ∈ new ↔ ∃ e : External,
       (t.scu.conditioners.read e).accepted ≠ (s.scu.conditioners.read e).accepted ∧
       rep = { source := External.toSource e, new := src.read e, previous := (s.scu.conditioners.read e).accepted,
               time := s.tbu.hubClock }) ∧
  (∀ (src : Tbl 24 Level) (s : State), s.live = true → ∃ t, exec (.sampleInstant src) s = .next t ∧
     ∀ e : External, (s.scu.conditioners.read e).accepted = .unknown →
       let old := s.scu.conditioners.read e
       let new := t.scu.conditioners.read e
       let f := (s.rtu.record (External.toSource e)).filter.toNat
       let run := if old.lastSample = some (src.read e) then old.runLength + 1 else 1
       new.lastSample = some (src.read e) ∧
       (run < f + 1 → new.accepted = .unknown ∧ new.runLength = run) ∧
       (f + 1 ≤ run → new.accepted = .known (src.read e) ∧ new.runLength = 0)) ∧
  (∀ (c : Scu) (source : Source) (before after : Byte),
     (c.changeFilter source before after).internal = c.internal ∧
     ∀ e : External, (c.changeFilter source before after).conditioners.read e =
       if External.toSource e = source ∧ before ≠ after then { c.conditioners.read e with runLength := 0 }
       else c.conditioners.read e)

/-- Which reports are events under each sense code. LEVEL_CHANGE_REPORT that is no event, the report of an unbound source or
one that its sense does not select, is taken without effect. -/
def Obligations.SenseDecidesEvents : Prop :=
  (∀ (previous : Accepted) (new : Level),
     (Sense.levelHigh.isEvent previous new = true ↔ new = .high) ∧
     (Sense.levelLow.isEvent previous new = true ↔ new = .low) ∧
     (Sense.rise.isEvent previous new = true ↔ previous = .known .low ∧ new = .high) ∧
     (Sense.fall.isEvent previous new = true ↔ previous = .known .high ∧ new = .low) ∧
     (Sense.both.isEvent previous new = true ↔ previous ≠ .unknown ∧ previous ≠ .known new)) ∧
  (∀ (s : State) (rep : LevelReport) (before after : List LevelReport), s.live = true →
     s.rtu.oldestReport before rep after →
     (s.rtu.record rep.source).status = .unbound ∨
       (s.rtu.record rep.source).sense.isEvent rep.previous rep.new = false →
     exec (.levelChangeReport rep.source) s = .next { s with rtu := { s.rtu with reports := before ++ after } })

/-- The SCU evaluates the six internal sources: each level becomes that of its condition, and each change makes one report.
The conditions: a BLOCKED requester on C0 to C3, a notice loss outstanding, the link STALLED. -/
def Obligations.InternalSourcesFollowConditions : Prop :=
  ∀ s : State,
    (∀ (i : Internal) (c : Channel), i.val = c.val → (s.conditionLevel i = .high ↔ ∃ (q : Requester) (reason : BlockReason),
      (s.gar.requester q).assigned = some c ∧ (s.gar.requester q).state = .blocked reason)) ∧
    (s.conditionLevel 4 = .high ↔ s.nq.lossCount ≠ 0 ∨ ∃ e ∈ s.nq.queue, e.isLoss = true) ∧
    (s.conditionLevel 5 = .high ↔ s.mlk.sender.link = .stalled) ∧
    ∃ new : List LevelReport,
      s.evaluate = { s with scu := { s.scu with internal := Tbl.build s.conditionLevel },
                            rtu := { s.rtu with reports := s.rtu.reports ++ new } } ∧
      (new.map LevelReport.source).Nodup ∧
      ∀ rep : LevelReport, rep ∈ new ↔ ∃ i : Internal, s.scu.internal.read i ≠ s.conditionLevel i ∧
        rep = { source := Internal.toSource i, new := s.conditionLevel i, previous := .known (s.scu.internal.read i),
                time := s.tbu.hubClock }

/-- LEVEL_CHANGE_REPORT, an event of a masked source: held is set, and nothing joins, is triggered or posted. An event of an
unmasked PENDING source: again is set, its place is kept, no trigger is handed, and a notice is posted when the report flag
is set. An event of an unmasked REPORT_ONLY source: it posts, and changes no routing state. -/
def Obligations.EventsThatJoinNothing : Prop :=
  (∀ (s : State) (rep : LevelReport) (before after : List LevelReport), s.live = true →
     s.rtu.oldestReport before rep after → (s.rtu.record rep.source).status ≠ .unbound →
     (s.rtu.record rep.source).sense.isEvent rep.previous rep.new = true → (s.rtu.record rep.source).mask = true →
     exec (.levelChangeReport rep.source) s = .next { s with rtu := { s.rtu with
       reports := before ++ after
       records := s.rtu.records.write rep.source { s.rtu.record rep.source with held := true } } }) ∧
  (∀ (s : State) (rep : LevelReport) (before after : List LevelReport) (l : Line), s.live = true →
     s.rtu.oldestReport before rep after → (s.rtu.record rep.source).status = .pending →
     (s.rtu.record rep.source).target = .line l →
     (s.rtu.record rep.source).sense.isEvent rep.previous rep.new = true → (s.rtu.record rep.source).mask = false →
     exec (.levelChangeReport rep.source) s = .next { s with
       rtu := { s.rtu with
         reports := before ++ after
         records := s.rtu.records.write rep.source { s.rtu.record rep.source with again := true } }
       nq := { s.nq with posts := s.nq.posts ++
         if (s.rtu.record rep.source).report then [.source { source := rep.source, level := rep.new, time := rep.time }]
         else [] } }) ∧
  (∀ (s : State) (rep : LevelReport) (before after : List LevelReport), s.live = true →
     s.rtu.oldestReport before rep after → (s.rtu.record rep.source).status = .idle →
     (s.rtu.record rep.source).target = .reportOnly → s.rtu.lawful →
     (s.rtu.record rep.source).sense.isEvent rep.previous rep.new = true → (s.rtu.record rep.source).mask = false →
     exec (.levelChangeReport rep.source) s = .next { s with
       rtu := { s.rtu with reports := before ++ after }
       nq := { s.nq with posts := s.nq.posts ++ [.source { source := rep.source, level := rep.new, time := rep.time }] } })

/-- LEVEL_CHANGE_REPORT, an event of an unmasked IDLE source with a line target: it joins its line's pending set at the tail
of its band and becomes PENDING, a join trigger is handed, a first member changes the occupancy, and a notice is posted when
the report flag is set. -/
def Obligations.EventOfIdleSourceJoins : Prop :=
  ∀ (s : State) (rep : LevelReport) (before after : List LevelReport) (l : Line), s.live = true → s.rtu.lawful →
    s.rtu.oldestReport before rep after → (s.rtu.record rep.source).status = .idle →
    (s.rtu.record rep.source).target = .line l →
    (s.rtu.record rep.source).sense.isEvent rep.previous rep.new = true → (s.rtu.record rep.source).mask = false →
    ∃ ahead behind, s.rtu.joinsBetween rep.source l ahead behind ∧
      exec (.levelChangeReport rep.source) s = .next { s with
        rtu := {
          reports := before ++ after
          sets := s.rtu.sets.write l (ahead ++ rep.source :: behind)
          records := s.rtu.records.write rep.source { s.rtu.record rep.source with status := .pending } }
        ald := { s.ald with
          triggers := s.ald.triggers ++ [{ kind := .join, line := l }]
          occupancy := s.ald.occupancy ++ if s.rtu.sets.read l = [] then [l] else [] }
        nq := { s.nq with posts := s.nq.posts ++
          if (s.rtu.record rep.source).report then [.source { source := rep.source, level := rep.new, time := rep.time }]
          else [] } }

/-! ### Attention lines -/

/-- JOIN_TRIGGER and REMINDER_TRIGGER at an enabled PULSE-mode line in phase QUIET: a pulse starts. JOIN_TRIGGER and
REMINDER_TRIGGER at an enabled PULSE-mode line in phase PULSE or GAP: owed is set, and the phase, its timer and the output
are unchanged. JOIN_TRIGGER and REMINDER_TRIGGER at a disabled or LEVEL-mode line are taken without effect on the line.
WIDTH_TIMER_EXPIRY: the pulse ends and the gap starts; owed is kept. GAP_TIMER_EXPIRY: with owed set and the set nonempty the
owed pulse starts; otherwise the line is QUIET. Owed is cleared. -/
def Obligations.PulseLineAnswersTriggers : Prop :=
  (∀ (kind : TriggerKind) (l : Line) (s : State), s.live = true → { kind := kind, line := l } ∈ s.ald.triggers →
     (s.ald.lines.read l).settings.enable = true → (s.ald.lines.read l).settings.mode = .pulse →
     (s.ald.lines.read l).phase = .quiet →
     exec (triggerCommand kind l) s = .next { s with ald := { s.ald with
       triggers := s.ald.triggers.erase { kind := kind, line := l }
       lines := s.ald.lines.write l { s.ald.lines.read l with
         phase := .pulse (s.ald.lines.read l).settings.width
         output := .asserted } } }) ∧
  (∀ (kind : TriggerKind) (l : Line) (s : State), s.live = true → { kind := kind, line := l } ∈ s.ald.triggers →
     (s.ald.lines.read l).settings.enable = true → (s.ald.lines.read l).settings.mode = .pulse →
     (s.ald.lines.read l).phase ≠ .quiet →
     exec (triggerCommand kind l) s = .next { s with ald := { s.ald with
       triggers := s.ald.triggers.erase { kind := kind, line := l }
       lines := s.ald.lines.write l { s.ald.lines.read l with owed := true } } }) ∧
  (∀ (kind : TriggerKind) (l : Line) (s : State), s.live = true → { kind := kind, line := l } ∈ s.ald.triggers →
     (s.ald.lines.read l).settings.enable = false ∨ (s.ald.lines.read l).settings.mode = .level →
     exec (triggerCommand kind l) s = .next { s with ald := { s.ald with
       triggers := s.ald.triggers.erase { kind := kind, line := l } } }) ∧
  (∀ (l : Line) (s : State) (width : Byte), s.live = true → (s.ald.lines.read l).phase = .pulse width →
     exec (.widthTimerExpiry l) s = .next { s with ald := { s.ald with
       lines := s.ald.lines.write l { s.ald.lines.read l with
         phase := .gap (s.ald.lines.read l).settings.gap
         output := .released } } }) ∧
  (∀ (l : Line) (s : State) (gap : Byte), s.live = true → (s.ald.lines.read l).phase = .gap gap →
     exec (.gapTimerExpiry l) s = .next { s with ald := { s.ald with
       lines := s.ald.lines.write l
         (if (s.ald.lines.read l).owed = true ∧ s.rtu.sets.read l ≠ [] then
           { s.ald.lines.read l with
             owed := false
             phase := .pulse (s.ald.lines.read l).settings.width
             output := .asserted }
         else { s.ald.lines.read l with owed := false, phase := .quiet }) } })

/-- OCCUPANCY_CHANGE: an enabled LEVEL-mode line is asserted when its set is nonempty and released when it is empty; a
disabled LEVEL-mode line stays OFF; a PULSE-mode line is unchanged. That the occupancy is read when the change is taken is
the model's reading (log 10). -/
def Obligations.OccupancyDrivesLevelLine : Prop :=
  ∀ (l : Line) (s : State), s.live = true → l ∈ s.ald.occupancy →
    exec (.occupancyChange l) s = .next { s with ald := { s.ald with
      occupancy := s.ald.occupancy.erase l
      lines :=
        if (s.ald.lines.read l).settings.mode = .level then
          s.ald.lines.write l { s.ald.lines.read l with
            output :=
              if (s.ald.lines.read l).settings.enable = false then .off
              else if s.rtu.sets.read l = [] then .released else .asserted }
        else s.ald.lines } }

/-- LINE_SET with fields in range: the settings are replaced, the timers cancelled, owed cleared, the output evaluated, and
an enabled PULSE-mode line with a nonempty set starts a pulse at once. The reply gives the phase and the output. -/
def Obligations.LineSetReplacesSettings : Prop :=
  ∀ (s : State) (f : Frame) (l : Line) (x : LineSettings), s.takes .lineSet f →
    f.body = [byteOf l.val, flagCode x.enable, x.mode.code, x.polarity.code, x.drive.code, x.width, x.gap] →
    x.width ≠ 0 → x.gap ≠ 0 → ¬ (x.drive = .openDrain ∧ x.polarity = .activeHigh) →
    let pulse := x.enable = true ∧ x.mode = .pulse ∧ s.rtu.sets.read l ≠ []
    let phase : LinePhase := if pulse then .pulse x.width else .quiet
    let output : LineOutput :=
      if x.enable = false then .off else if s.rtu.sets.read l = [] then .released else .asserted
    exec .lineSet s = .next (State.answered { s with ald := { s.ald with
      lines := s.ald.lines.write l { settings := x, phase := phase, owed := false, output := output } } }
      f .ok [phase.code, output.code] none)

/-! ### The notice queue -/

/-- SOURCE_EVENT_POST: coalesced into the source's UNSENT entry, or appended, or recorded as a loss. The SCU then evaluates,
and the transmitter starts its next frame. GRANT_EVENT_POST: appended, or recorded as a loss. The SCU then evaluates, and the
transmitter starts its next frame. The command takes the oldest post (log 9). -/
def Obligations.PostsCoalesceAppendOrAreLost : Prop :=
  (∀ (s : State) (p : SourcePost) (rest : List Post), s.live = true → s.nq.posts = .source p :: rest →
     ∃ n : Nq, exec .sourceEventPost s = .next (State.startNext (State.evaluate { s with nq := n })) ∧
       (∀ before after count level time,
         s.nq.queue =
           before ++ { body := .sourceEvent p.source count level time, delivery := .unsent } :: after →
         (∀ e ∈ before, e.isUnsentOf p.source = false) →
         n = { s.nq with
           posts := rest
           queue :=
             before ++ { body := .sourceEvent p.source (satInc count) level time, delivery := .unsent } :: after }) ∧
       ((∀ e ∈ s.nq.queue, e.isUnsentOf p.source = false) → s.nq.queue.length < 32 →
         n = { s.nq with
           posts := rest
           queue := s.nq.queue ++ [{ body := .sourceEvent p.source 1 p.level p.time, delivery := .unsent }] }) ∧
       ((∀ e ∈ s.nq.queue, e.isUnsentOf p.source = false) → 32 ≤ s.nq.queue.length →
         n = Nq.recordLoss { s.nq with posts := rest } s.tbu.hubClock)) ∧
  (∀ (s : State) (e : GrantEvent) (rest : List Post), s.live = true → s.nq.posts = .grant e :: rest →
     ∃ n : Nq, exec .grantEventPost s = .next (State.startNext (State.evaluate { s with nq := n })) ∧
       (s.nq.queue.length < 32 →
         n = { s.nq with
           posts := rest
           queue := s.nq.queue ++ [{ body := .grantEvent e, delivery := .unsent }] }) ∧
       (32 ≤ s.nq.queue.length → n = Nq.recordLoss { s.nq with posts := rest } s.tbu.hubClock))

/-- A loss goes into the UNSENT LOSS entry when there is one, and else into the loss record. An entry that leaves by
acknowledgement or withdrawal: the others keep their order, and a loss count above 0 is carried into the UNSENT LOSS entry,
or into a new LOSS entry at the tail. -/
def Obligations.LossIsCountedAndCarried : Prop :=
  (∀ (n : Nq) (now : Time),
     (∀ before after count time,
       n.queue = before ++ { body := .loss count time, delivery := .unsent } :: after →
       (∀ e ∈ before, e.isUnsentLoss = false) →
       n.recordLoss now = { n with
         queue := before ++ { body := .loss (satInc count) time, delivery := .unsent } :: after }) ∧
     ((∀ e ∈ n.queue, e.isUnsentLoss = false) →
       n.recordLoss now = { n with
         lossCount := satInc n.lossCount
         firstLossTime := if n.lossCount = 0 then some now else n.firstLossTime })) ∧
  (∀ (n : Nq) (p : Entry → Bool) (before after : List Entry) (e : Entry), n.queue = before ++ e :: after →
     p e = true → (∀ x ∈ before, p x = false) →
     (n.lossCount = 0 → n.removeFirst p = { n with queue := before ++ after }) ∧
     (n.lossCount ≠ 0 → (∀ x ∈ before ++ after, x.isUnsentLoss = false) →
       n.removeFirst p = { n with
         queue := before ++ after ++ [{ body := .loss n.lossCount (n.firstLossTime.getD 0), delivery := .unsent }]
         lossCount := 0
         firstLossTime := none }) ∧
     (∀ ahead behind count time, n.lossCount ≠ 0 →
       before ++ after = ahead ++ { body := .loss count time, delivery := .unsent } :: behind →
       (∀ x ∈ ahead, x.isUnsentLoss = false) →
       n.removeFirst p = { n with
         queue := ahead ++ { body := .loss (satAdd count n.lossCount) time, delivery := .unsent } :: behind
         lossCount := 0
         firstLossTime := none }))

/-! ### Grant channels -/

/-- A join of a wait queue: at the tail under ARRIVAL; under PRIORITY behind every promoted member and every member of the
same or a lower-numbered priority. The requester becomes WAITING with pass count 0 and promoted clear. -/
def Obligations.JoinWaitQueueByPolicy : Prop :=
  ∀ (g : Gar) (c : Channel) (q : Requester),
    ((g.channel c).settings.policy = .arrival →
      g.enqueue c q = {
        channels := g.channels.write c { g.channel c with queue := (g.channel c).queue ++ [q] }
        requesters := g.requesters.write q { g.requester q with state := .waiting 0 false } }) ∧
    ((g.channel c).settings.policy = .priority → g.queueLawful c →
      ∃ ahead behind, (g.channel c).queue = ahead ++ behind ∧
        (∀ m ∈ ahead, (g.requester m).state.isPromoted = true ∨ (g.requester m).priority ≤ (g.requester q).priority) ∧
        (∀ m ∈ behind, (g.requester m).state.isPromoted = false ∧ (g.requester q).priority < (g.requester m).priority) ∧
        g.enqueue c q = {
          channels := g.channels.write c { g.channel c with queue := ahead ++ q :: behind }
          requesters := g.requesters.write q { g.requester q with state := .waiting 0 false } })

/-- The grant rule: an open channel in phase IDLE with a nonempty queue grants its head, and no other does. The grant makes
the head the holder with no units and the present clock value, starts the hold timer when the hold limit is above 0, counts
the grant, and posts GRANTED when report-grants is on. Without aging no other requester changes. Aging at a grant under
PRIORITY with an age limit above 0: each member left in the queue that is not promoted has its pass count raised by one and
is promoted when it reaches the limit; the queue is then the members promoted before, the members promoted now, and the
others, each group in its order. -/
def Obligations.GrantGoesToHeadAndAgesTheRest : Prop :=
  (∀ (g : Gar) (c : Channel) (now : Time),
     (((g.channel c).settings.isOpen = false ∨ (g.channel c).phase ≠ .idle ∨ (g.channel c).queue = []) →
       g.grantTest c now = { gar := g, events := [] }) ∧
     (∀ q rest, (g.channel c).settings.isOpen = true → (g.channel c).phase = .idle → (g.channel c).queue = q :: rest →
       ((g.channel c).settings.policy = .arrival ∨ (g.channel c).settings.ageLimit = 0) →
       g.grantTest c now = {
         gar := {
           requesters := g.requesters.write q { g.requester q with state := .granted 0 now }
           channels := g.channels.write c { g.channel c with
             phase := .held q
             queue := rest
             holdTimer :=
               if (g.channel c).settings.holdLimit = 0 then .stopped else .start (g.channel c).settings.holdLimit.toNat
             grants := satInc (g.channel c).grants } }
         events :=
           if (g.channel c).settings.reportGrants then
             [{ channel := c, requester := q, what := .granted, reason := .none, units := 0, duration := 0, time := now }]
           else [] })) ∧
  (∀ (g : Gar) (c : Channel) (now : Time) (q : Requester) (rest : List Requester),
     (g.channel c).settings.isOpen = true → (g.channel c).phase = .idle → (g.channel c).queue = q :: rest → q ∉ rest →
     (g.channel c).settings.policy = .priority → 0 < (g.channel c).settings.ageLimit.toNat →
     let t := (g.grantTest c now).gar
     let limit := (g.channel c).settings.ageLimit.toNat
     let old (m : Requester) : Bool := (g.requester m).state.isPromoted
     let new (m : Requester) : Bool := (t.requester m).state.isPromoted
     t.requester q = { g.requester q with state := .granted 0 now } ∧
     (∀ m, m ≠ q → m ∉ rest → t.requester m = g.requester m) ∧
     (∀ m ∈ rest, ∀ passes promoted, (g.requester m).state = .waiting passes promoted →
       t.requester m = { g.requester m with
         state :=
           if promoted then .waiting passes true else .waiting (passes + 1) (decide (limit ≤ passes + 1)) }) ∧
     t.channels = g.channels.write c { g.channel c with
       phase := .held q
       queue := rest.filter old ++ rest.filter (fun m => !old m && new m) ++ rest.filter fun m => !new m
       holdTimer :=
         if (g.channel c).settings.holdLimit = 0 then .stopped else .start (g.channel c).settings.holdLimit.toNat
       grants := satInc (g.channel c).grants } ∧
     (g.grantTest c now).events =
       if (g.channel c).settings.reportGrants then
         [{ channel := c, requester := q, what := .granted, reason := .none, units := 0, duration := 0, time := now }]
       else [])

/-- CHANNEL_SAMPLE_EVENT: the channel's requesters are taken in ascending number, DONE before REQ for each, and then the
grant rule is applied once; the posts go to the NQ in order, and the SCU evaluates. A DETACHED requester has its levels
updated alone, and a requester of another channel is not touched; that every channel's event updates a DETACHED requester is
the model's choice (log 11). -/
def Obligations.SampleEventTakesRequestersInOrder : Prop :=
  ∀ (c : Channel) (req done : Pins) (s : State), s.live = true →
    let one (q : Requester) (g : Gar) : GarStep :=
      if (g.requester q).assigned = none then
        { gar := { g with
            requesters := g.requesters.write q
              { g.requester q with reqLevel := req.read q, doneLevel := some (done.read q) } }
          events := [] }
      else if (g.requester q).assigned = some c then
        (g.takeDone c q (done.read q) s.tbu.hubClock).andThen fun g => g.takeReq c q (req.read q) s.tbu.hubClock
      else { gar := g, events := [] }
    let all : GarStep :=
      ((List.finRange 12).foldl (fun x q => GarStep.andThen x (one q)) { gar := s.gar, events := [] }).andThen
        fun g => g.grantTest c s.tbu.hubClock
    exec (.channelSampleEvent c req done) s = .next (State.evaluate { s with
      gar := all.gar
      nq := { s.nq with posts := s.nq.posts ++ all.events.map Post.grant } })

/-- The REQ sample of an assigned requester, by its state. The DONE sample of an assigned requester, by its state: an edge is
HIGH after LOW. -/
def Obligations.RequesterSamplesByState : Prop :=
  (∀ (g : Gar) (c : Channel) (q : Requester) (now : Time),
     (∀ level, (g.requester q).reqLevel = level → g.takeReq c q level now = { gar := g, events := [] }) ∧
     ((g.requester q).reqLevel = .low → (g.requester q).state = .idle →
       g.takeReq c q .high now = {
         gar := Gar.enqueue
           { g with requesters := g.requesters.write q { g.requester q with reqLevel := .high } } c q
         events := [] }) ∧
     (∀ passes promoted, (g.requester q).reqLevel = .high → (g.requester q).state = .waiting passes promoted →
       g.takeReq c q .low now = {
         gar := {
           requesters := g.requesters.write q { g.requester q with reqLevel := .low, state := .idle }
           channels := g.channels.write c { g.channel c with queue := (g.channel c).queue.erase q } }
         events := [] }) ∧
     (∀ units start, (g.requester q).reqLevel = .high → (g.requester q).state = .granted units start →
       g.takeReq c q .low now = {
         gar := {
           requesters := g.requesters.write q { g.requester q with reqLevel := .low, state := .idle }
           channels := g.channels.write c { g.channel c with phase := .idle, holdTimer := .stopped } }
         events :=
           if (g.channel c).settings.reportGrants then
             [{ channel := c, requester := q, what := .ended, reason := .released, units := units,
                duration := elapsed now start, time := now }]
           else [] }) ∧
     (∀ reason, (g.requester q).reqLevel = .high → (g.requester q).state = .blocked reason →
       g.takeReq c q .low now = {
         gar := {
           requesters := g.requesters.write q { g.requester q with reqLevel := .low, state := .idle }
           channels :=
             if (g.channel c).phase = .settling (some q) then
               g.channels.write c { g.channel c with phase := .idle, settleTimer := .stopped }
             else g.channels }
         events := [] })) ∧
  (∀ (g : Gar) (c : Channel) (q : Requester) (now : Time),
     (∀ level, ¬ ((g.requester q).doneLevel = some .low ∧ level = .high) →
       g.takeDone c q level now = {
         gar := { g with requesters := g.requesters.write q { g.requester q with doneLevel := some level } }
         events := [] }) ∧
     ((g.requester q).doneLevel = some .low →
       (∀ units start, (g.requester q).state = .granted units start →
         ((g.channel c).settings.quota = 0 ∨ (satInc units).toNat < (g.channel c).settings.quota.toNat) →
         g.takeDone c q .high now = {
           gar := { g with
             requesters := g.requesters.write q
               { g.requester q with doneLevel := some .high, state := .granted (satInc units) start } }
           events := [] }) ∧
       (∀ units start, (g.requester q).state = .granted units start → (g.requester q).reqLevel = .high →
         (g.channel c).settings.quota ≠ 0 → (g.channel c).settings.quota.toNat ≤ (satInc units).toNat →
         g.takeDone c q .high now = {
           gar := Gar.enqueue {
             requesters := g.requesters.write q { g.requester q with doneLevel := some .high, state := .idle }
             channels := g.channels.write c { g.channel c with phase := .idle, holdTimer := .stopped } } c q
           events :=
             if (g.channel c).settings.reportGrants then
               [{ channel := c, requester := q, what := .ended, reason := .quota, units := satInc units,
                  duration := elapsed now start, time := now }]
             else [] }) ∧
       (∀ reason, (g.requester q).state = .blocked reason → reason ≠ .reset →
         g.takeDone c q .high now = {
           gar := {
             requesters := g.requesters.write q { g.requester q with doneLevel := some .high }
             channels := g.channels.write c { g.channel c with lateDones := satInc (g.channel c).lateDones } }
           events := [] }) ∧
       ((g.requester q).state = .idle ∨ (g.requester q).state.isWaiting = true ∨
           (g.requester q).state = .blocked .reset →
         g.takeDone c q .high now = {
           gar := {
             requesters := g.requesters.write q { g.requester q with doneLevel := some .high }
             channels := g.channels.write c { g.channel c with strayDones := satInc (g.channel c).strayDones } }
           events := [] })))

/-- HOLD_TIMER_EXPIRY: the holder becomes BLOCKED with reason TIMEOUT, the channel goes SETTLING with its settle timer
started, the timeout is counted and posted, and the SCU evaluates. SETTLE_TIMER_EXPIRY: the settling ends in phase IDLE with
no settling requester, and the grant rule is applied. -/
def Obligations.HoldAndSettleTimersExpire : Prop :=
  (∀ (c : Channel) (q : Requester) (units : Byte) (start : Time) (s : State), s.live = true →
     (s.gar.channel c).holdTimer = .running 0 → (s.gar.channel c).phase = .held q →
     (s.gar.requester q).state = .granted units start →
     exec (.holdTimerExpiry c) s = .next (State.evaluate { s with
       gar := {
         requesters := s.gar.requesters.write q { s.gar.requester q with state := .blocked .timeout }
         channels := s.gar.channels.write c { s.gar.channel c with
           phase := .settling (some q)
           holdTimer := .stopped
           settleTimer := .start (s.gar.channel c).settings.settleLimit.toNat
           timeouts := satInc (s.gar.channel c).timeouts } }
       nq := { s.nq with posts := s.nq.posts ++
         [.grant { channel := c, requester := q, what := .timeout, reason := .none, units := units,
                   duration := elapsed s.tbu.hubClock start, time := s.tbu.hubClock }] } })) ∧
  (∀ (c : Channel) (q : Option Requester) (s : State), s.live = true →
     (s.gar.channel c).settleTimer = .running 0 → (s.gar.channel c).phase = .settling q →
     let x := Gar.grantTest { s.gar with
       channels := s.gar.channels.write c { s.gar.channel c with phase := .idle, settleTimer := .stopped } }
       c s.tbu.hubClock
     exec (.settleTimerExpiry c) s = .next { s with
       gar := x.gar
       nq := { s.nq with posts := s.nq.posts ++ x.events.map Post.grant } })

/-! ### The receiver -/

/-- START_BIT, RXD_RETURN_TO_MARK, GAP_LIMIT_EXPIRY and FRAMING_FAULT at the receiver: a frame in progress is aborted and
counted once, and a fault in HUNT is not counted. -/
def Obligations.ReceiverTimersAndFaults : Prop :=
  ∀ s : State, s.live = true →
    (s.mlk.receiver.inCharacter = false → s.mlk.receiver.awaitMark = false →
      exec .startBit s = .next { s with mlk := { s.mlk with
        receiver := { s.mlk.receiver with inCharacter := true, gapTimer := false } } }) ∧
    exec .rxdReturnToMark s = .next { s with mlk := { s.mlk with
      receiver := { s.mlk.receiver with awaitMark := false } } } ∧
    (s.mlk.receiver.gapTimer = true → s.mlk.receiver.receiving ≠ .hunt →
      exec .gapLimitExpiry s = .next { s with mlk := { s.mlk with
        receiver := { s.mlk.receiver with receiving := .hunt, gapTimer := false }
        counters := { s.mlk.counters with gapAborts := satInc s.mlk.counters.gapAborts } } }) ∧
    (s.mlk.receiver.inCharacter = true → s.mlk.receiver.receiving ≠ .hunt →
      exec .framingFault s = .next { s with mlk := { s.mlk with
        receiver := { receiving := .hunt, gapTimer := false, inCharacter := false, awaitMark := true }
        counters := { s.mlk.counters with gapAborts := satInc s.mlk.counters.gapAborts } } }) ∧
    (s.mlk.receiver.inCharacter = true → s.mlk.receiver.receiving = .hunt →
      exec .framingFault s = .next { s with mlk := { s.mlk with
        receiver := { s.mlk.receiver with inCharacter := false, awaitMark := true } } })

/-- CHARACTER_RECEIVED by the receiver's phase. LENGTH_ERROR, and CHARACTER_RECEIVED where it is the same event: a length
above 40 is counted, the frame is discarded and the receiver returns to HUNT. FRAME_RECEIVED, and CHARACTER_RECEIVED where it
is the same event: a check value that differs is counted and the frame discarded; a good frame is appended to the receive
buffer, with an indication when its kind is a request kind, or dropped and counted as an overrun when the buffer holds 2
frames. That the two commands name one event is the model's reading of the table (log 12). -/
def Obligations.CharactersMakeFrames : Prop :=
  (∀ (b : Byte) (s : State) (next : Receiving), s.live = true → s.mlk.receiver.inCharacter = true →
     (s.mlk.receiver.receiving = .hunt ∧ b = 0xC3 ∧ next = .kind ∨
       s.mlk.receiver.receiving = .hunt ∧ b ≠ 0xC3 ∧ next = .hunt ∨
       s.mlk.receiver.receiving = .kind ∧ next = .tag b ∨
       (∃ k, s.mlk.receiver.receiving = .tag k ∧ next = .length k b) ∨
       (∃ k t, s.mlk.receiver.receiving = .length k t ∧ b = 0 ∧ next = .checkHigh k t b []) ∨
       (∃ k t, s.mlk.receiver.receiving = .length k t ∧ 1 ≤ b.toNat ∧ b.toNat ≤ 40 ∧ next = .body k t b []) ∨
       (∃ k t n sofar, s.mlk.receiver.receiving = .body k t n sofar ∧ sofar.length + 1 < n.toNat ∧
         next = .body k t n (sofar ++ [b])) ∨
       (∃ k t n sofar, s.mlk.receiver.receiving = .body k t n sofar ∧ sofar.length + 1 = n.toNat ∧
         next = .checkHigh k t n (sofar ++ [b])) ∨
       (∃ k t n bytes, s.mlk.receiver.receiving = .checkHigh k t n bytes ∧ next = .checkLow k t n bytes b)) →
     exec (.characterReceived b) s = .next { s with mlk := { s.mlk with
       receiver := { s.mlk.receiver with receiving := next, gapTimer := decide (next ≠ .hunt), inCharacter := false } } }) ∧
  (∀ (b k tag : Byte) (s : State) (c : Instr), s.live = true → s.mlk.receiver.inCharacter = true →
     s.mlk.receiver.receiving = .length k tag → 40 < b.toNat → c = .lengthError b ∨ c = .characterReceived b →
     exec c s = .next { s with mlk := { s.mlk with
       receiver := { s.mlk.receiver with receiving := .hunt, gapTimer := false, inCharacter := false }
       counters := { s.mlk.counters with lengthErrors := satInc s.mlk.counters.lengthErrors } } }) ∧
  (∀ (b k tag n high : Byte) (bytes : List Byte) (s : State) (c : Instr), s.live = true →
     s.mlk.receiver.inCharacter = true → s.mlk.receiver.receiving = .checkLow k tag n bytes high →
     c = .frameReceived b ∨ c = .characterReceived b →
     let receiver : Receiver :=
       { receiving := .hunt, gapTimer := false, inCharacter := false, awaitMark := s.mlk.receiver.awaitMark }
     (crc16 (k :: tag :: n :: bytes) ≠ high ++ b →
       exec c s = .next { s with mlk := { s.mlk with
         receiver := receiver
         counters := { s.mlk.counters with checkErrors := satInc s.mlk.counters.checkErrors } } }) ∧
     (crc16 (k :: tag :: n :: bytes) = high ++ b → s.mlk.buffer.length < 2 →
       exec c s = .next { s with mlk := { s.mlk with
         receiver := receiver
         buffer := s.mlk.buffer ++
           [{ frame := { kind := k, tag := tag, body := bytes }
              indication := decide (0x10 ≤ k.toNat ∧ k.toNat ≤ 0x1F) }] } }) ∧
     (crc16 (k :: tag :: n :: bytes) = high ++ b → 2 ≤ s.mlk.buffer.length →
       exec c s = .next { s with mlk := { s.mlk with
         receiver := receiver
         counters := { s.mlk.counters with overruns := satInc s.mlk.counters.overruns } } }))

/-- A frame sent to the part byte by byte is received whole: from HUNT, the characters of the bytes of any frame with a body
of at most 40 bytes put that frame, kind, tag and body, into a receive buffer with room. That CHARACTER_RECEIVED ends the header
and the frame is the model's reading of the table (log 12). -/
def Obligations.FrameBytesAreReceivedAsFrame : Prop :=
  ∀ (f : Frame) (s : State), f.body.length ≤ 40 → s.live = true → s.mlk.receiver.receiving = .hunt →
    s.mlk.receiver.inCharacter = false → s.mlk.receiver.awaitMark = false → s.mlk.buffer.length < 2 →
    core.run (hear f.bytes).length (s.withPending (hear f.bytes)) = .next { s with
      pending := []
      mlk := { s.mlk with
        receiver := { receiving := .hunt, gapTimer := false, inCharacter := false, awaitMark := false }
        buffer := s.mlk.buffer ++
          [{ frame := f, indication := decide (0x10 ≤ f.kind.toNat ∧ f.kind.toNat ≤ 0x1F) }] } }

/-- The layout of a frame: sync, kind, tag, length, body and the check value high byte first; fields of two and four bytes
are high byte first. The kind and body of each notice. -/
def Obligations.FrameLayoutAndNoticeBodies : Prop :=
  ((∀ f : Frame, f.bytes = [0xC3, f.kind, f.tag, BitVec.ofNat 8 f.body.length] ++ f.body ++
     be16 (crc16 ([f.kind, f.tag, BitVec.ofNat 8 f.body.length] ++ f.body))) ∧
   (∀ h : Half, ∃ high low : Byte, be16 h = [high, low] ∧ h = high ++ low) ∧
   (∀ w : Time, ∃ a b c d : Byte, be32 w = [a, b, c, d] ∧ w = a ++ b ++ c ++ d)) ∧
  (∀ (number : Byte) (time : Time),
     (∀ cause device revision, (NoticeBody.start cause device revision time).frame number =
       { kind := 0x40, tag := number, body := [cause.code, device, revision] ++ be32 time }) ∧
     (∀ source count level, (NoticeBody.sourceEvent source count level time).frame number =
       { kind := 0x41, tag := number, body := [BitVec.ofNat 8 source.val, count, Level.code level] ++ be32 time }) ∧
     (∀ e : GrantEvent, (NoticeBody.grantEvent e).frame number =
       { kind := 0x42, tag := number
         body := [BitVec.ofNat 8 e.channel.val, BitVec.ofNat 8 e.requester.val, e.what.code, e.reason.code, e.units] ++
           be16 e.duration ++ be32 e.time }) ∧
     (∀ count, (NoticeBody.loss count time).frame number =
       { kind := 0x43, tag := number, body := be16 count ++ be32 time }))

/-- The check value: its computation step by step, the published example, the RESYNC example, the register at 0 after the two
check bytes of a correct frame, the check bytes of a frame sent, and the comparison at a frame received. -/
def Obligations.CheckValueOfFrame : Prop :=
  (let step (r : Half) : Half := if r.msb then (r <<< 1) ^^^ 0x1021 else r <<< 1
   ∀ bytes : List Byte, crc16 bytes = bytes.foldl (fun r b => step^[8] (r ^^^ (b ++ 0#8))) 0xFFFF) ∧
  crc16 [0x31, 0x32, 0x33, 0x34, 0x35, 0x36, 0x37, 0x38, 0x39] = 0x29B1 ∧
  Frame.bytes { kind := 0x1F, tag := 0, body := [] } = [0xC3, 0x1F, 0x00, 0x00, 0xA3, 0xCE] ∧
  (∀ bytes : List Byte, crc16 (bytes ++ be16 (crc16 bytes)) = 0) ∧
  (∀ f : Frame, ∃ high low : Byte, high ++ low = crc16 ([f.kind, f.tag, BitVec.ofNat 8 f.body.length] ++ f.body) ∧
    f.bytes = [0xC3, f.kind, f.tag, BitVec.ofNat 8 f.body.length] ++ f.body ++ [high, low]) ∧
  (∀ (k tag n high b : Byte) (bytes : List Byte), Receiving.take b (.checkLow k tag n bytes high) =
    if crc16 (k :: tag :: n :: bytes) = high ++ b then (.hunt, .good { kind := k, tag := tag, body := bytes })
    else (.hunt, .checkError))

/-! ### The transmitter and the notice sender -/

/-- The rule at a frame boundary: a transmitter that is sending goes on; a waiting reply is started first; with no reply and
no claim the transmitter stays idle. The sender claims while its link is RUNNING and its round list is nonempty, or the
IN_FLIGHT count is below the window and an entry is UNSENT. A resend: the head of the round list leaves the list, and its
frame carries that entry as it stands, under its number. -/
def Obligations.TransmitterStartsReplyThenResend : Prop :=
  (∀ s : State,
     (s.mlk.tx ≠ .idle → s.startNext = s) ∧
     (s.mlk.tx = .idle → s.mlk.replies ≠ [] → s.startNext = { s with mlk := { s.mlk with tx := .reply } }) ∧
     (s.mlk.tx = .idle → s.mlk.replies = [] → s.noticeClaim = false → s.startNext = s) ∧
     (s.noticeClaim = true ↔ s.mlk.sender.link = .running ∧ (s.mlk.sender.roundList ≠ [] ∨
       (s.nq.inFlight.length < s.mlk.settings.window.toNat ∧ ∃ e ∈ s.nq.queue, e.delivery = .unsent)))) ∧
  (∀ (s : State) (number : Byte) (rest : List Byte) (before after : List Entry) (body : NoticeBody),
     s.mlk.tx = .idle → s.mlk.replies = [] → s.mlk.sender.link = .running →
     s.mlk.sender.roundList = number :: rest →
     s.nq.queue = before ++ { body := body, delivery := .inFlight number } :: after →
     (∀ e ∈ before, e.delivery ≠ .inFlight number) →
     s.startNext = { s with mlk := { s.mlk with
       tx := .notice (body.frame number)
       sender := { s.mlk.sender with roundList := rest } } })

/-- A first sending: the first UNSENT entry takes the next number that no IN_FLIGHT entry carries, passing over carried ones,
and becomes IN_FLIGHT; the next number becomes the one after it; and the retransmit timer starts when it is the only entry
IN_FLIGHT. -/
def Obligations.FirstSendingNumbersEntry : Prop :=
  ∀ (s : State) (before after : List Entry) (body : NoticeBody), s.noticesLawful →
    s.mlk.tx = .idle → s.mlk.replies = [] → s.mlk.sender.link = .running → s.mlk.sender.roundList = [] →
    s.nq.inFlight.length < s.mlk.settings.window.toNat →
    s.nq.queue = before ++ { body := body, delivery := .unsent } :: after → (∀ e ∈ before, e.delivery ≠ .unsent) →
    ∃ passed : Nat, let number := nextNotice^[passed] s.mlk.sender.nextNumber
      (∀ k < passed, nextNotice^[k] s.mlk.sender.nextNumber ∈ s.nq.inFlight) ∧ number ∉ s.nq.inFlight ∧
      s.startNext = { s with
        nq := { s.nq with queue := before ++ { body := body, delivery := .inFlight number } :: after }
        mlk := { s.mlk with
          tx := .notice (body.frame number)
          sender := { s.mlk.sender with
            nextNumber := nextNotice number
            timer :=
              if s.nq.inFlight = [] then .start (10 * s.mlk.settings.interval.toNat) else s.mlk.sender.timer } } }

/-- FRAME_SENT: a reply leaves the reply queue, with its rate switch, and the transmitter starts its next frame. That a rate
switch keeps the receiver's wait for mark is the model's reading (log 24). -/
def Obligations.FrameSentEndsFrame : Prop :=
  ∀ s : State, s.live = true →
    (∀ f, s.mlk.tx = .notice f →
      exec .frameSent s = .next (State.startNext { s with mlk := { s.mlk with tx := .idle } })) ∧
    (∀ r rest, s.mlk.tx = .reply → s.mlk.replies = r :: rest → r.rateSwitch = none →
      exec .frameSent s = .next (State.startNext { s with mlk := { s.mlk with tx := .idle, replies := rest } })) ∧
    (∀ r rest rate, s.mlk.tx = .reply → s.mlk.replies = r :: rest → r.rateSwitch = some rate →
      exec .frameSent s = .next (State.startNext { s with mlk := { s.mlk with
        tx := .idle
        replies := rest
        lineRate := rate
        receiver := { s.mlk.receiver with receiving := .hunt, gapTimer := false, inCharacter := false } } }))

/-- GOOD_FRAME_INDICATION: no effect on a RUNNING link but the taking; on a STALLED link the stall ends, a round begins with
every IN_FLIGHT entry, the timer is restarted and the SCU evaluates. The operand decides whether an idle transmitter starts
the round before the request's reply (log 13). While a lawful link is STALLED no request is executed and no duplicate
answered: the frame's indication ends the stall first. -/
def Obligations.GoodFrameIndicationEndsStall : Prop :=
  (∀ (noticeFirst : Bool) (s : State) (before after : List Buffered) (f : Frame), s.live = true →
     s.mlk.buffer = before ++ { frame := f, indication := true } :: after → (∀ b ∈ before, b.indication = false) →
     let taken := before ++ { frame := f, indication := false } :: after
     let recovered := State.evaluate { s with mlk := { s.mlk with
       buffer := taken
       sender := { s.mlk.sender with
         link := .running
         retryCount := 0
         roundList := s.nq.inFlight
         timer := .start (10 * s.mlk.settings.interval.toNat) }
       counters := { s.mlk.counters with rounds := satInc s.mlk.counters.rounds } } }
     (s.mlk.sender.link = .running →
       exec (.goodFrameIndication noticeFirst) s = .next { s with mlk := { s.mlk with buffer := taken } }) ∧
     (s.mlk.sender.link = .stalled →
       exec (.goodFrameIndication noticeFirst) s = .next (if noticeFirst then recovered.startNext else recovered))) ∧
  (∀ (c : Instr) (s : State), s.noticesLawful → s.mlk.sender.link = .stalled → requestKind c ≠ none ∨ c = .duplicate →
     exec c s = .next s)

/-- RETRANSMIT_TIMER_EXPIRY: below the retry limit a round begins; at or above it the link becomes STALLED. At a stall the
good-frame indication of every request frame in the receive buffer is to be taken again, so that the frame ends the stall
before it is dispatched (log 14). -/
def Obligations.RetransmitExpiryBeginsRoundOrStalls : Prop :=
  ∀ s : State, s.live = true → s.mlk.sender.timer = .running 0 →
    (s.mlk.sender.retryCount < s.mlk.settings.retryLimit.toNat →
      exec .retransmitTimerExpiry s = .next (State.startNext { s with mlk := { s.mlk with
        sender := { s.mlk.sender with
          retryCount := s.mlk.sender.retryCount + 1
          roundList := s.nq.inFlight
          timer := .start (10 * s.mlk.settings.interval.toNat) }
        counters := { s.mlk.counters with rounds := satInc s.mlk.counters.rounds } } })) ∧
    (s.mlk.settings.retryLimit.toNat ≤ s.mlk.sender.retryCount →
      exec .retransmitTimerExpiry s = .next (State.evaluate { s with mlk := { s.mlk with
        buffer := s.mlk.buffer.map fun b =>
          { b with indication := decide (0x10 ≤ b.frame.kind.toNat ∧ b.frame.kind.toNat ≤ 0x1F) }
        sender := { s.mlk.sender with link := .stalled, timer := .stopped, roundList := [] }
        counters := { s.mlk.counters with stalls := satInc s.mlk.counters.stalls } } }))

/-! ### The dispatcher -/

/-- BAD_KIND: a frame whose kind is outside 0x10 to 0x1F is answered with kind 0x80, its tag and BAD_KIND, and nothing but
the receive buffer and the transmit side changes. DUPLICATE: a request other than RESYNC with the tag of the saved reply is
not executed; a copy of the saved reply is queued, without a rate switch, and the duplicate is counted. RESYNC is exempt: no
frame of its kind is a duplicate, and it is executed alike whatever the saved reply. That DUPLICATE then changes nothing is
the model's choice (log 4). -/
def Obligations.BadKindAndDuplicateAreAnswered : Prop :=
  (∀ (s : State) (f : Frame), s.ready f → f.kind.toNat < 0x10 ∨ 0x1F < f.kind.toNat →
     exec .badKind s = .next { s with mlk := { s.mlk with
       buffer := s.mlk.buffer.tail
       replies := s.mlk.replies ++ [{ frame := { kind := 0x80, tag := f.tag, body := [1] }, rateSwitch := none }]
       tx := if s.mlk.tx = .idle then .reply else s.mlk.tx } }) ∧
  (∀ (s : State) (f saved : Frame), s.ready f → 0x10 ≤ f.kind.toNat → f.kind.toNat < 0x1F → s.mlk.saved = some saved →
     saved.tag = f.tag →
     exec .duplicate s = .next { s with mlk := { s.mlk with
       buffer := s.mlk.buffer.tail
       replies := s.mlk.replies ++ [{ frame := saved, rateSwitch := none }]
       counters := { s.mlk.counters with duplicates := satInc s.mlk.counters.duplicates }
       tx := if s.mlk.tx = .idle then .reply else s.mlk.tx } }) ∧
  (∀ (s : State) (f : Frame) (saved : Option Frame), s.ready f → f.kind = 0x1F →
     exec .duplicate s = .next s ∧ ∃ t, exec .resync s = .next t ∧
       exec .resync { s with mlk := { s.mlk with saved := saved } } = .next t)

/-- Every request that is taken gets one reply, saved and queued, with its kind plus 0x80 and its tag; a result other than OK
carries no fields and comes with no other change of state; and LINK_SET alone gives a rate switch. No request but UNBIND,
which takes the posts handed before it (log 9), starts another frame first. A body of the wrong length is refused with
BAD_LENGTH, whatever the kind of the request. -/
def Obligations.EveryRequestIsAnswered : Prop :=
  (∀ (c : Instr) (kind : RequestKind) (s : State) (f : Frame), requestKind c = some kind → s.takes kind f →
     (c = .maskOn → s.nextMaskValue ≠ some false) → (c = .maskOff → s.nextMaskValue ≠ some true) →
     ∃ (u : State) (result : Result) (fields : List Byte) (rateSwitch : Option RateCode),
       exec c s = .next (u.answered f result fields rateSwitch) ∧
       u.mlk.buffer = s.mlk.buffer ∧ u.mlk.replies = s.mlk.replies ∧ u.pending = s.pending ∧
       (u.mlk.tx = s.mlk.tx ∨ c = .unbind) ∧
       (result ≠ .ok → fields = [] ∧ u = s) ∧ (rateSwitch ≠ none → c = .linkSet)) ∧
  (∀ (c : Instr) (kind : RequestKind) (s : State) (f : Frame), requestKind c = some kind → s.takes kind f →
     bodyLengthFits kind f.body = false → exec c s = .next (s.answered f .badLength [] none))

/-- STATUS: the reply carries the figures of the moment, and with the clear flag set the seven counters are 0 afterwards. -/
def Obligations.StatusReportsAndClears : Prop :=
  ∀ (s : State) (f : Frame) (clear : Bool), s.takes .status f → f.body = [flagCode clear] →
    let x := s.mlk.counters
    exec .status s = .next (State.answered
      (if clear then { s with mlk := { s.mlk with counters :=
        { checkErrors := 0, gapAborts := 0, lengthErrors := 0, overruns := 0, duplicates := 0, rounds := 0,
          stalls := 0 } } } else s)
      f .ok
      ([0xE3, 1] ++ be32 s.tbu.hubClock ++
        [BitVec.ofNat 8 s.nq.queue.length, BitVec.ofNat 8 (s.nq.queue.filter Entry.isUnsent).length,
          BitVec.ofNat 8 s.nq.inFlight.length] ++ be16 s.nq.lossCount ++
        [s.mlk.sender.link.code, BitVec.ofNat 8 s.mlk.sender.retryCount] ++ be16 x.checkErrors ++ be16 x.gapAborts ++
        be16 x.lengthErrors ++ be16 x.overruns ++ be16 x.duplicates ++ be16 x.rounds ++ be16 x.stalls) none)

/-- LINK_SET with fields in range stores the four settings; the reply carries a rate switch exactly when the rate code
differs from the rate setting before. -/
def Obligations.LinkSetStoresSettings : Prop :=
  ∀ (s : State) (f : Frame) (x : LinkSettings), s.takes .linkSet f → x.lawful →
    f.body = [rateByte x.rate, x.window, x.interval, x.retryLimit] →
    exec .linkSet s = .next (State.answered { s with mlk := { s.mlk with settings := x } } f .ok []
      (if x.rate = s.mlk.settings.rate then none else some x.rate))

/-- NOTICE_ACK: the numbers are taken in order, each ACKED exactly when an IN_FLIGHT entry carries it then, and that entry
leaves the queue. When one is ACKED the retry count is 0, the acknowledged numbers leave the round list, and the timer is
restarted, or stopped when no entry remains IN_FLIGHT. -/
def Obligations.NoticeAckRemovesEntries : Prop :=
  (∀ n : Nq, n.acknowledgeAll [] = (n, [])) ∧
  (∀ (n : Nq) (number : Byte) (rest : List Byte), n.acknowledgeAll (number :: rest) =
    let m := n.removeFirst fun e => decide (e.delivery = .inFlight number)
    ((m.acknowledgeAll rest).1, (number, decide (number ∈ n.inFlight)) :: (m.acknowledgeAll rest).2)) ∧
  ∀ (s : State) (f : Frame) (numbers : List Byte), s.takes .noticeAck f → 1 ≤ numbers.length → numbers.length ≤ 4 →
    f.body = BitVec.ofNat 8 numbers.length :: numbers →
    let n := (s.nq.acknowledgeAll numbers).1
    let outcomes := (s.nq.acknowledgeAll numbers).2
    let acked := (outcomes.filter Prod.snd).map Prod.fst
    exec .noticeAck s = .next (State.answered
      (State.evaluate { s with
        nq := n
        mlk := { s.mlk with sender :=
          if acked = [] then s.mlk.sender
          else { s.mlk.sender with
            retryCount := 0
            roundList := s.mlk.sender.roundList.filter fun x => decide (x ∉ acked)
            timer := if n.inFlight = [] then .stopped else .start (10 * s.mlk.settings.interval.toNat) } } })
      f .ok (BitVec.ofNat 8 numbers.length :: outcomes.flatMap fun o => [o.1, if o.2 then 0 else 1]) none)

/-- RESYNC: the queue is reverted and merged, the numbering restarts from 1 with the link RUNNING, and the SCU evaluates. The
merge, from the head on: every entry becomes UNSENT where it stands; a START or GRANT_EVENT entry is kept; the first
SOURCE_EVENT entry of a source keeps its place, level and time, adds the counts of the later ones of that source up to 255,
and they leave; the first LOSS entry likewise, up to 65535. When no entry leaves, or the loss count is 0, the loss record is
kept. When one leaves and the loss count is above 0, the count is carried into the LOSS entry, or into a new one at the tail
with the time of the first loss, and the loss record is cleared. The posts are kept. -/
def Obligations.ResyncRestartsNumberingAndMerges : Prop :=
  (∀ (s : State) (f : Frame), s.takes .resync f → f.body = [] →
     exec .resync s = .next (State.answered
       (State.evaluate { s with
         nq := s.nq.resync
         mlk := { s.mlk with
           sender := { link := .running, nextNumber := 1, retryCount := 0, timer := .stopped, roundList := [] } } })
       f .ok [] none)) ∧
  (mergeAll [] = [] ∧ ∀ (delivery : Delivery) (rest : List Entry),
     (∀ cause device revision time,
       mergeAll ({ body := .start cause device revision time, delivery := delivery } :: rest) =
         { body := .start cause device revision time, delivery := .unsent } :: mergeAll rest) ∧
     (∀ event, mergeAll ({ body := .grantEvent event, delivery := delivery } :: rest) =
       { body := .grantEvent event, delivery := .unsent } :: mergeAll rest) ∧
     (∀ (source : Source) (count : Byte) (level : Level) (time : Time),
       let later (e : Entry) : Option Nat :=
         match e.body with
         | .sourceEvent x more _ _ => if x = source then some more.toNat else none
         | .start _ _ _ _ | .grantEvent _ | .loss _ _ => none
       let total : Byte := BitVec.ofNat 8 (min 255 (count.toNat + (rest.filterMap later).sum))
       mergeAll ({ body := .sourceEvent source count level time, delivery := delivery } :: rest) =
         { body := .sourceEvent source total level time, delivery := .unsent } ::
           mergeAll (rest.filter fun e => decide (later e = none))) ∧
     (∀ (count : Half) (time : Time),
       let later (e : Entry) : Option Nat :=
         match e.body with
         | .loss more _ => some more.toNat
         | .start _ _ _ _ | .sourceEvent _ _ _ _ | .grantEvent _ => none
       let total : Half := BitVec.ofNat 16 (min 65535 (count.toNat + (rest.filterMap later).sum))
       mergeAll ({ body := .loss count time, delivery := delivery } :: rest) =
         { body := .loss total time, delivery := .unsent } ::
           mergeAll (rest.filter fun e => decide (later e = none)))) ∧
  (∀ n : Nq,
     let merged := mergeAll n.queue
     (n.queue.length ≤ merged.length ∨ n.lossCount = 0 → n.resync = { n with queue := merged }) ∧
     (merged.length < n.queue.length → n.lossCount ≠ 0 → (∀ e ∈ merged, e.isLoss = false) →
       n.resync = { n with
         queue := merged ++ [{ body := .loss n.lossCount (n.firstLossTime.getD 0), delivery := .unsent }]
         lossCount := 0
         firstLossTime := none }) ∧
     (∀ ahead behind count time, merged.length < n.queue.length → n.lossCount ≠ 0 →
       merged = ahead ++ { body := .loss count time, delivery := .unsent } :: behind →
       (∀ e ∈ ahead, e.isLoss = false) →
       n.resync = { n with
         queue := ahead ++ { body := .loss (satAdd count n.lossCount) time, delivery := .unsent } :: behind
         lossCount := 0
         firstLossTime := none }))

/-- The four queries change no state but for their reply, and report the state of the moment. -/
def Obligations.QueriesReportState : Prop :=
  (∀ (s : State) (f : Frame) (source : Source), s.takes .sourceQuery f → f.body = [BitVec.ofNat 8 source.val] →
    let x := s.rtu.record source
    let position : Nat :=
      match x.status, x.target with
      | .pending, .line l => (s.rtu.sets.read l).idxOf source + 1
      | _, _ => 0
    exec .sourceQuery s = .next (s.answered f .ok
      [BitVec.ofNat 8 source.val, x.status.code, x.target.code, x.cls.code, BitVec.ofNat 8 x.priority.val, x.sense.code,
        x.filter, flagCode x.report, flagCode x.mask, flagCode x.again, flagCode x.held, BitVec.ofNat 8 position,
        (s.scu.level source).code] none)) ∧
  (∀ (s : State) (f : Frame) (l : Line), s.takes .pendingList f → f.body = [BitVec.ofNat 8 l.val] →
    exec .pendingList s = .next (s.answered f .ok
      ([BitVec.ofNat 8 l.val, BitVec.ofNat 8 (s.rtu.sets.read l).length] ++
        (s.rtu.sets.read l).map fun m => BitVec.ofNat 8 m.val) none)) ∧
  (∀ (s : State) (f : Frame) (l : Line), s.takes .lineQuery f → f.body = [BitVec.ofNat 8 l.val] →
    let x := s.ald.lines.read l
    exec .lineQuery s = .next (s.answered f .ok
      [BitVec.ofNat 8 l.val, flagCode x.settings.enable, x.settings.mode.code, x.settings.polarity.code,
        x.settings.drive.code, x.settings.width, x.settings.gap, x.phase.code, flagCode x.owed,
        BitVec.ofNat 8 (s.rtu.sets.read l).length, x.output.code] none)) ∧
  (∀ (s : State) (f : Frame) (c : Channel), s.takes .channelQuery f → f.body = [BitVec.ofNat 8 c.val] →
    let x := s.gar.channel c
    let holder : Byte × Byte × Half :=
      match x.phase with
      | .held q => (BitVec.ofNat 8 q.val, (s.gar.requester q).state.units,
          elapsed s.tbu.hubClock (s.gar.requester q).state.start)
      | .idle | .settling _ => (0xFF, 0, 0)
    exec .channelQuery s = .next (s.answered f .ok
      ([BitVec.ofNat 8 c.val, flagCode x.settings.isOpen, x.settings.quota, x.settings.policy.code] ++
        be16 x.settings.holdLimit ++
        [x.settings.settleLimit, x.settings.ageLimit, flagCode x.settings.reportGrants, x.phase.code, holder.1,
          holder.2.1] ++
        be16 holder.2.2 ++ [BitVec.ofNat 8 x.queue.length] ++ x.queue.map (fun q => BitVec.ofNat 8 q.val) ++
        be16 x.grants ++ be16 x.timeouts ++ be16 x.revokes ++ be16 x.lateDones ++ be16 x.strayDones) none))

/-! ### The binding requests -/

/-- BIND is refused: with RANGE for a field out of range or REPORT_ONLY with report clear; then with BOUND for a bound
source; then with CONFLICT against the class of the line's bindings. UNBIND, MASK and SERVICE are refused with RANGE for a
source above 29 or a mask value above 1 (which either MASK command takes, log 5), with NOT_BOUND for an unbound source, and
SERVICE with NOT_PENDING for an IDLE one. -/
def Obligations.RoutingRequestRefusals : Prop :=
  (∀ (s : State) (f : Frame) (source target cls priority sense filter report : Byte), s.takes .bind f →
     f.body = [source, target, cls, priority, sense, filter, report] →
     let badRange := 29 < source.toNat ∨ 8 < target.toNat ∨ 1 < cls.toNat ∨ 3 < priority.toNat ∨ 4 < sense.toNat ∨
       1 < report.toNat ∨ (target = 8 ∧ report = 0)
     (badRange → exec .bind s = .next (s.answered f .range [] none)) ∧
     (¬ badRange → ∀ x : Source, x.val = source.toNat →
       ((s.rtu.record x).status ≠ .unbound → exec .bind s = .next (s.answered f .bound [] none)) ∧
       ((s.rtu.record x).status = .unbound → ∀ l : Line, l.val = target.toNat →
         ((cls = 0 ∧ ∃ m, (s.rtu.record m).status ≠ .unbound ∧ (s.rtu.record m).target = .line l) ∨
           (∃ m, (s.rtu.record m).status ≠ .unbound ∧ (s.rtu.record m).target = .line l ∧
             (s.rtu.record m).cls = .exclusive)) →
         exec .bind s = .next (s.answered f .conflict [] none)))) ∧
  (∀ (s : State) (f : Frame) (source value : Byte),
     (f.body = [source] → s.takes .unbind f → 29 < source.toNat → exec .unbind s = .next (s.answered f .range [] none)) ∧
     (f.body = [source] → s.takes .service f → 29 < source.toNat →
       exec .service s = .next (s.answered f .range [] none)) ∧
     (f.body = [source, value] → s.takes .mask f → 29 < source.toNat ∨ 1 < value.toNat →
       (value ≠ 0 → exec .maskOn s = .next (s.answered f .range [] none)) ∧
       (value ≠ 1 → exec .maskOff s = .next (s.answered f .range [] none))) ∧
     (∀ x : Source, x.val = source.toNat →
       (f.body = [source] → s.takes .unbind f → (s.rtu.record x).status = .unbound →
         exec .unbind s = .next (s.answered f .notBound [] none)) ∧
       (f.body = [source] → s.takes .service f → (s.rtu.record x).status = .unbound →
         exec .service s = .next (s.answered f .notBound [] none)) ∧
       (f.body = [source] → s.takes .service f → (s.rtu.record x).status = .idle →
         exec .service s = .next (s.answered f .notPending [] none)) ∧
       (f.body = [source, 1] → s.takes .mask f → (s.rtu.record x).status = .unbound →
         exec .maskOn s = .next (s.answered f .notBound [] none)) ∧
       (f.body = [source, 0] → s.takes .mask f → (s.rtu.record x).status = .unbound →
         exec .maskOff s = .next (s.answered f .notBound [] none))))

/-- An accepted BIND stores the record, with class SHARED for REPORT_ONLY and LEVEL_HIGH with filter 0 for an internal
source, and, when the source is level-sensed and active, has the bind-time level event: with a line target the source joins,
with REPORT_ONLY it does not, and either posts when report is set. Reports not yet taken found the source unbound (log 8). -/
def Obligations.BindStoresRecordWithLevelEvent : Prop :=
  ∀ (s : State) (f : Frame) (source : Source) (target : Target) (cls : SourceClass) (priority : Priority) (sense : Sense)
    (filter : Byte) (report : Bool), s.takes .bind f →
    f.body = [BitVec.ofNat 8 source.val, target.code, cls.code, BitVec.ofNat 8 priority.val, sense.code, filter,
      flagCode report] →
    ¬ (target = .reportOnly ∧ report = false) → s.rtu.lawful → (s.rtu.record source).status = .unbound →
    (∀ l, target = .line l → ∀ m, (s.rtu.record m).boundTo l = true → cls = .shared ∧ (s.rtu.record m).cls = .shared) →
    let x : BindingRecord :=
      { target := target
        cls := if target = .reportOnly then .shared else cls
        priority := priority
        sense := if source.val < 24 then sense else .levelHigh
        filter := if source.val < 24 then filter else 0
        report := report
        mask := false
        status := .idle
        again := false
        held := false }
    let scu := s.scu.changeFilter source 0 x.filter
    let reports := s.rtu.reports.filter fun r => decide (r.source ≠ source)
    let posts (level : Level) : List Post :=
      if report then [.source { source := source, level := level, time := s.tbu.hubClock }] else []
    ((∀ level, s.scu.level source = .known level → x.sense.activeLevel ≠ some level) →
      exec .bind s = .next (State.answered { s with
        scu := scu
        rtu := { s.rtu with reports := reports, records := s.rtu.records.write source x } } f .ok [1] none)) ∧
    (∀ level, s.scu.level source = .known level → x.sense.activeLevel = some level → target = .reportOnly →
      exec .bind s = .next (State.answered { s with
        scu := scu
        rtu := { s.rtu with reports := reports, records := s.rtu.records.write source x }
        nq := { s.nq with posts := s.nq.posts ++ posts level } } f .ok [1] none)) ∧
    (∀ level l, s.scu.level source = .known level → x.sense.activeLevel = some level → target = .line l →
      ∃ ahead behind, (s.rtu.setRecord source x).joinsBetween source l ahead behind ∧
        exec .bind s = .next (State.answered { s with
          scu := scu
          rtu := {
            reports := reports
            sets := s.rtu.sets.write l (ahead ++ source :: behind)
            records := s.rtu.records.write source { x with status := .pending } }
          ald := { s.ald with
            triggers := s.ald.triggers ++ [{ kind := .join, line := l }]
            occupancy := s.ald.occupancy ++ if s.rtu.sets.read l = [] then [l] else [] }
          nq := { s.nq with posts := s.nq.posts ++ posts level } } f .ok [2] none))

/-- An accepted UNBIND: the posts handed before it are taken first, each as its own command takes it (log 9). Then a PENDING
source leaves its set without a trigger, the source's UNSENT notice is withdrawn, the record takes the values of an unbound
one, and the SCU evaluates. The reply gives the status before and how many notices were withdrawn. -/
def Obligations.UnbindClearsRecord : Prop :=
  ∀ (s : State) (f : Frame) (source : Source), s.takes .unbind f → f.body = [BitVec.ofNat 8 source.val] →
    (s.rtu.record source).status ≠ .unbound →
    (∀ p rest t, s.nq.posts = p :: rest →
      exec (match p with | .source _ => .sourceEventPost | .grant _ => .grantEventPost) s = .next t →
      exec .unbind s = exec .unbind t) ∧
    (s.nq.posts = [] →
      let x := s.rtu.record source
      let answer (sets : Tbl 8 (List Source)) (occupancy : List Line) (previous : Byte) :
          Host.Outcome State Fault Refusal :=
        .next (State.answered
          (State.evaluate { s with
            scu := s.scu.changeFilter source x.filter 0
            rtu := { s.rtu with sets := sets, records := s.rtu.records.write source BindingRecord.unbound }
            ald := { s.ald with occupancy := s.ald.occupancy ++ occupancy }
            nq := s.nq.removeFirst (Entry.isUnsentOf source) })
          f .ok [previous, if s.nq.queue.any (Entry.isUnsentOf source) then 1 else 0] none)
      (x.status = .idle → exec .unbind s = answer s.rtu.sets [] 1) ∧
      (∀ l, x.status = .pending → x.target = .line l → source ∈ s.rtu.sets.read l →
        exec .unbind s = answer (s.rtu.sets.write l ((s.rtu.sets.read l).erase source))
          (if (s.rtu.sets.read l).erase source = [] then [l] else []) 2))

/-- An accepted MASK on: an unmasked PENDING source leaves its set without a trigger, with held set and again clear; an
unmasked IDLE one is masked; a masked one is unchanged. The reply gives IDLE and released 0. An accepted MASK off: an
unmasked source is unchanged; a masked one is unmasked with held clear. With a line target it joins when held or active, and
a held event posts when report is set; with REPORT_ONLY a held event posts. The reply gives the status and whether a held
event was released. A masked source whose accepted level is UNKNOWN stays IDLE with released 0 and nothing posted: no event
of it has been, as the law of levels in Obligations.StepKeepsRoutingLaw gives. A MASK off that reads the accepted level, of a
masked level-sensed source with a line target and no held event, takes the waiting reports of its source first, each as
LEVEL_CHANGE_REPORT takes it, and its outcome is that of a MASK off after them; another leaves them waiting (log 8). -/
def Obligations.MaskHoldsAndReleasesEvents : Prop :=
  (∀ (s : State) (f : Frame) (source : Source), s.takes .mask f → f.body = [BitVec.ofNat 8 source.val, 1] →
     s.rtu.lawful → (s.rtu.record source).status ≠ .unbound →
     let x := s.rtu.record source
     (x.mask = true → exec .maskOn s = .next (s.answered f .ok [1, 0] none)) ∧
     (x.mask = false → x.status = .idle →
       exec .maskOn s = .next (State.answered { s with
         rtu := { s.rtu with records := s.rtu.records.write source { x with mask := true } } } f .ok [1, 0] none)) ∧
     (∀ l, x.mask = false → x.status = .pending → x.target = .line l →
       exec .maskOn s = .next (State.answered { s with
         rtu := { s.rtu with
           sets := s.rtu.sets.write l ((s.rtu.sets.read l).erase source)
           records := s.rtu.records.write source
             { x with mask := true, status := .idle, again := false, held := true } }
         ald := { s.ald with
           occupancy := s.ald.occupancy ++ if (s.rtu.sets.read l).erase source = [] then [l] else [] } }
         f .ok [1, 0] none))) ∧
  (∀ (s : State) (f : Frame) (source : Source), s.takes .mask f → f.body = [BitVec.ofNat 8 source.val, 0] →
     s.rtu.lawful → (s.rtu.record source).status ≠ .unbound →
     let x := s.rtu.record source
     let bare : BindingRecord := { x with mask := false, held := false }
     let reads := x.mask = true ∧ x.target ≠ .reportOnly ∧ x.held = false ∧ (x.sense = .levelHigh ∨ x.sense = .levelLow)
     (reads → ∀ n t, s.takesReports source n t → t.rtu.noReportOf source → exec .maskOff s = exec .maskOff t) ∧
     (x.mask = false → exec .maskOff s = .next (s.answered f .ok [x.status.code, 0] none)) ∧
     (s.eventsHaveLevels → s.scu.level source = .unknown → x.mask = true →
       exec .maskOff s = .next (State.answered { s with
         rtu := { s.rtu with records := s.rtu.records.write source bare } } f .ok [1, 0] none)) ∧
     (∀ level, s.scu.level source = .known level → (reads → s.rtu.noReportOf source) →
       let posts : List Post :=
         if x.held ∧ x.report then [.source { source := source, level := level, time := s.tbu.hubClock }] else []
       (x.mask = true → x.target = .reportOnly →
         exec .maskOff s = .next (State.answered { s with
           rtu := { s.rtu with records := s.rtu.records.write source bare }
           nq := { s.nq with posts := s.nq.posts ++ posts } } f .ok [1, flagCode x.held] none)) ∧
       (∀ l, x.mask = true → x.target = .line l → x.held = false → x.sense.activeLevel ≠ some level →
         exec .maskOff s = .next (State.answered { s with
           rtu := { s.rtu with records := s.rtu.records.write source bare } } f .ok [1, 0] none)) ∧
       (∀ l, x.mask = true → x.target = .line l → x.held = true ∨ x.sense.activeLevel = some level →
         ∃ ahead behind, s.rtu.joinsBetween source l ahead behind ∧
           exec .maskOff s = .next (State.answered { s with
             rtu := { s.rtu with
               sets := s.rtu.sets.write l (ahead ++ source :: behind)
               records := s.rtu.records.write source { bare with status := .pending } }
             ald := { s.ald with
               triggers := s.ald.triggers ++ [{ kind := .join, line := l }]
               occupancy := s.ald.occupancy ++ if s.rtu.sets.read l = [] then [l] else [] }
             nq := { s.nq with posts := s.nq.posts ++ posts } } f .ok [2, flagCode x.held] none))))

/-- An accepted SERVICE: the source leaves its set; with again set, or level-sensed and active, it rejoins at the tail of its
band with a join trigger; otherwise it becomes IDLE, with a reminder trigger when the set is still nonempty. A rejoin posts
nothing. A SERVICE that reads the accepted level, of a level-sensed source with again clear, takes the waiting reports of its
source first, each as LEVEL_CHANGE_REPORT takes it, and its outcome is that of a SERVICE after them; another leaves them
waiting (log 8). -/
def Obligations.ServiceRejoinsOrGoesIdle : Prop :=
  ∀ (s : State) (f : Frame) (source : Source) (l : Line), s.takes .service f → f.body = [BitVec.ofNat 8 source.val] →
    s.rtu.lawful → (s.rtu.record source).status = .pending → (s.rtu.record source).target = .line l →
    let x := s.rtu.record source
    let left := (s.rtu.sets.read l).erase source
    let active := ∃ level, s.scu.level source = .known level ∧ x.sense.activeLevel = some level
    let reads := x.again = false ∧ (x.sense = .levelHigh ∨ x.sense = .levelLow)
    (reads → ∀ n t, s.takesReports source n t → t.rtu.noReportOf source → exec .service s = exec .service t) ∧
    ((reads → s.rtu.noReportOf source) → x.again = true ∨ active →
      ∃ ahead behind, left = ahead ++ behind ∧ (∀ m ∈ ahead, (s.rtu.record m).priority ≤ x.priority) ∧
        (∀ m ∈ behind, x.priority < (s.rtu.record m).priority) ∧
        exec .service s = .next (State.answered { s with
          rtu := { s.rtu with
            sets := s.rtu.sets.write l (ahead ++ source :: behind)
            records := s.rtu.records.write source { x with again := false } }
          ald := { s.ald with triggers := s.ald.triggers ++ [{ kind := .join, line := l }] } } f .ok [2] none)) ∧
    ((reads → s.rtu.noReportOf source) → x.again = false → ¬ active →
      exec .service s = .next (State.answered { s with
        rtu := { s.rtu with
          sets := s.rtu.sets.write l left
          records := s.rtu.records.write source { x with status := .idle } }
        ald := { s.ald with
          triggers := s.ald.triggers ++ if left = [] then [] else [{ kind := .reminder, line := l }]
          occupancy := s.ald.occupancy ++ if left = [] then [l] else [] } } f .ok [1] none))

/-- LINE_SET is refused with RANGE for a line above 7, a flag or code above 1, a width or gap of 0, or OPEN_DRAIN with
ACTIVE_HIGH. CHANNEL_SET, ASSIGN and REVOKE are refused with RANGE for a field out of range. -/
def Obligations.LineAndGrantRequestRefusals : Prop :=
  (∀ (s : State) (f : Frame) (line enable mode polarity drive width gap : Byte), s.takes .lineSet f →
     f.body = [line, enable, mode, polarity, drive, width, gap] →
     7 < line.toNat ∨ 1 < enable.toNat ∨ 1 < mode.toNat ∨ 1 < polarity.toNat ∨ 1 < drive.toNat ∨ width = 0 ∨ gap = 0 ∨
       (drive = 1 ∧ polarity = 1) →
     exec .lineSet s = .next (s.answered f .range [] none)) ∧
  ((∀ (s : State) (f : Frame) (channel isOpen quota policy high low settle age report : Byte), s.takes .channelSet f →
     f.body = [channel, isOpen, quota, policy, high, low, settle, age, report] →
     3 < channel.toNat ∨ 1 < isOpen.toNat ∨ 1 < policy.toNat ∨ settle = 0 ∨ 15 < age.toNat ∨ 1 < report.toNat →
     exec .channelSet s = .next (s.answered f .range [] none)) ∧
   (∀ (s : State) (f : Frame) (requester channel priority : Byte), s.takes .assign f →
     f.body = [requester, channel, priority] →
     11 < requester.toNat ∨ (3 < channel.toNat ∧ channel ≠ 0xFF) ∨ 3 < priority.toNat →
     exec .assign s = .next (s.answered f .range [] none)) ∧
   (∀ (s : State) (f : Frame) (channel : Byte), s.takes .revoke f → f.body = [channel] → 3 < channel.toNat →
     exec .revoke s = .next (s.answered f .range [] none)))

/-- The queries, STATUS and LINK_SET are refused with RANGE for a field out of range. -/
def Obligations.QueryAndLinkRequestRefusals : Prop :=
  (∀ (s : State) (f : Frame) (b : Byte), f.body = [b] →
    (s.takes .sourceQuery f → 29 < b.toNat → exec .sourceQuery s = .next (s.answered f .range [] none)) ∧
    (s.takes .pendingList f → 7 < b.toNat → exec .pendingList s = .next (s.answered f .range [] none)) ∧
    (s.takes .lineQuery f → 7 < b.toNat → exec .lineQuery s = .next (s.answered f .range [] none)) ∧
    (s.takes .channelQuery f → 3 < b.toNat → exec .channelQuery s = .next (s.answered f .range [] none)) ∧
    (s.takes .status f → 1 < b.toNat → exec .status s = .next (s.answered f .range [] none))) ∧
  (∀ (s : State) (f : Frame) (rate window interval retryLimit : Byte), s.takes .linkSet f →
    f.body = [rate, window, interval, retryLimit] →
    4 < rate.toNat ∨ window = 0 ∨ 4 < window.toNat ∨ interval = 0 ∨ retryLimit = 0 ∨ 15 < retryLimit.toNat →
    exec .linkSet s = .next (s.answered f .range [] none))

/-! ### The grant requests -/

/-- CHANNEL_SET with fields in range: with BUSY when a locked field of a channel in use would change; else the settings are
replaced, the grant rule is applied, and the reply gives the phase and the holder, or 0xFF. -/
def Obligations.ChannelSetReplacesSettings : Prop :=
  ∀ (s : State) (f : Frame) (c : Channel) (x : ChannelSettings), s.takes .channelSet f →
    f.body = [BitVec.ofNat 8 c.val, flagCode x.isOpen, x.quota, x.policy.code] ++ be16 x.holdLimit ++
      [x.settleLimit, x.ageLimit, flagCode x.reportGrants] →
    x.settleLimit ≠ 0 → x.ageLimit.toNat ≤ 15 →
    let old := (s.gar.channel c).settings
    let inUse := (s.gar.channel c).phase ≠ .idle ∨ (s.gar.channel c).queue ≠ []
    let locked := x.quota = old.quota ∧ x.policy = old.policy ∧ x.holdLimit = old.holdLimit ∧
      x.settleLimit = old.settleLimit ∧ x.ageLimit = old.ageLimit
    let y := Gar.grantTest { s.gar with
      channels := s.gar.channels.write c { s.gar.channel c with settings := x } } c s.tbu.hubClock
    (inUse → ¬ locked → exec .channelSet s = .next (s.answered f .busy [] none)) ∧
    (¬ inUse ∨ locked →
      exec .channelSet s = .next (State.answered { s with
        gar := y.gar
        nq := { s.nq with posts := s.nq.posts ++ y.events.map Post.grant } }
        f .ok
        [(y.gar.channel c).phase.code,
          match (y.gar.channel c).phase with
          | .held q => BitVec.ofNat 8 q.val
          | .idle | .settling _ => 0xFF] none))

/-- ASSIGN with fields in range: with BUSY for a WAITING or GRANTED requester; else by the state before, the new channel and
the REQ level; then the SCU evaluates. The reply gives the requester's state and block reason. -/
def Obligations.AssignPlacesRequester : Prop :=
  ∀ (s : State) (f : Frame) (q : Requester) (channel : Option Channel) (priority : Priority), s.takes .assign f →
    f.body = [BitVec.ofNat 8 q.val, (match channel with | some c => BitVec.ofNat 8 c.val | none => 0xFF),
      BitVec.ofNat 8 priority.val] →
    let r := s.gar.requester q
    let placed (state : RequesterState) : Gar := { s.gar with
      requesters := s.gar.requesters.write q { r with assigned := channel, priority := priority, state := state } }
    let answer (x : GarStep) (fields : List Byte) : Host.Outcome State Fault Refusal := .next (State.answered
      (State.evaluate { s with gar := x.gar, nq := { s.nq with posts := s.nq.posts ++ x.events.map Post.grant } })
      f .ok fields none)
    (r.state.isWaiting = true ∨ r.state.isGranted = true →
      exec .assign s = .next (s.answered f .busy [] none)) ∧
    (s.gar.lawful → channel = none → r.state = .detached ∨ r.state = .idle →
      exec .assign s = answer { gar := placed .detached, events := [] } [0, 0]) ∧
    (∀ c, s.gar.lawful → channel = some c → r.state = .detached ∨ r.state = .idle → r.reqLevel = .low →
      exec .assign s = answer { gar := placed .idle, events := [] } [1, 0]) ∧
    (∀ c, channel = some c → r.state = .detached ∨ r.state = .idle → r.reqLevel = .high →
      let x := ((placed .idle).enqueue c q).grantTest c s.tbu.hubClock
      exec .assign s = answer x [(x.gar.requester q).state.code, 0]) ∧
    (∀ reason, s.gar.lawful → r.state = .blocked reason →
      let state : RequesterState := if channel = none then .detached else .blocked reason
      let channels :=
        match r.assigned with
        | some old =>
            if channel ≠ some old ∧ (s.gar.channel old).phase = .settling (some q) then
              s.gar.channels.write old { s.gar.channel old with phase := .settling none }
            else s.gar.channels
        | none => s.gar.channels
      exec .assign s = answer { gar := { placed state with channels := channels }, events := [] }
        [state.code, state.blockCode])

/-- REVOKE of a HELD channel acts as a hold timeout does, with reason REVOKED and the revokes counter, and the reply gives
the requester and its units; of another channel it is refused with NO_HOLDER. -/
def Obligations.RevokeTakesChannelBack : Prop :=
  ∀ (s : State) (f : Frame) (c : Channel), s.takes .revoke f → f.body = [BitVec.ofNat 8 c.val] →
    ((∀ q, (s.gar.channel c).phase ≠ .held q) → exec .revoke s = .next (s.answered f .noHolder [] none)) ∧
    (∀ q units start, (s.gar.channel c).phase = .held q → (s.gar.requester q).state = .granted units start →
      exec .revoke s = .next (State.answered
        (State.evaluate { s with
          gar := {
            requesters := s.gar.requesters.write q { s.gar.requester q with state := .blocked .revoked }
            channels := s.gar.channels.write c { s.gar.channel c with
              phase := .settling (some q)
              holdTimer := .stopped
              settleTimer := .start (s.gar.channel c).settings.settleLimit.toNat
              revokes := satInc (s.gar.channel c).revokes } }
          nq := { s.nq with posts := s.nq.posts ++
            [.grant { channel := c, requester := q, what := .revoked, reason := .none, units := units,
                      duration := elapsed s.tbu.hubClock start, time := s.tbu.hubClock }] } })
        f .ok [BitVec.ofNat 8 q.val, units] none))

/-! ### Laws that every step keeps -/

/-- Every law below holds of State.reset. -/
def Obligations.ResetIsLawful : Prop :=
  State.reset.rtu.lawful ∧ State.reset.rtu.exclusivityHolds ∧ State.reset.eventsHaveLevels ∧ State.reset.linesLawful ∧
  State.reset.noticesLawful ∧ State.reset.grantsLawful ∧ State.reset.internalAgrees ∧ State.reset.mlk.lawful

/-- Every step keeps the law of the binding table and the pending sets, and that no line carries both an EXCLUSIVE binding
and any other. Every step keeps the law of levels: a source whose accepted level is UNKNOWN is not PENDING, holds no event and
has no report waiting. -/
def Obligations.StepKeepsRoutingLaw : Prop :=
  (∀ s t : State, s.rtu.lawful ∧ s.rtu.exclusivityHolds → step s = .next t → t.rtu.lawful ∧ t.rtu.exclusivityHolds) ∧
  (∀ s t : State, s.eventsHaveLevels → step s = .next t → t.eventsHaveLevels)

/-- Every step keeps the law of the attention lines: among them that a LEVEL-mode line is asserted exactly when it is enabled
and its pending set is nonempty, once its occupancy changes have been taken. -/
def Obligations.StepKeepsLineLaw : Prop :=
  ∀ s t : State, s.linesLawful → step s = .next t → t.linesLawful

/-- Every step keeps the law of notice delivery: at most 32 entries, the IN_FLIGHT ones at the head with distinct numbers
from 1 to 255 and at most four, at most one UNSENT SOURCE_EVENT entry for each source and one UNSENT LOSS entry, START
nowhere but at the head, and the timer running on a RUNNING link exactly while an entry is IN_FLIGHT. A STALLED link has an
entry IN_FLIGHT, its timer stopped and its round list empty, and every request frame in the receive buffer is still to end the
stall. -/
def Obligations.StepKeepsNoticeLaw : Prop :=
  ∀ s t : State, s.noticesLawful → step s = .next t → t.noticesLawful

/-- Every step keeps the law of the grant arbiter: among it that a channel has a holder exactly when its phase is HELD, that
a requester is in its channel's queue exactly when it is WAITING, and that no channel stands open and IDLE with a nonempty
queue. -/
def Obligations.StepKeepsGrantLaw : Prop :=
  ∀ s t : State, s.grantsLawful → step s = .next t → t.grantsLawful

/-- Every step keeps the levels of the internal sources equal to their conditions. -/
def Obligations.StepKeepsInternalLevels : Prop :=
  ∀ s t : State, s.grantsLawful → s.internalAgrees → step s = .next t → t.internalAgrees

/-- Every step keeps the law of the link: at most 2 frames in the receive buffer and 2 replies in the reply queue, a reply
never waiting at an idle transmitter, and the rate setting equal to the last rate switch to come, or to the line rate. -/
def Obligations.StepKeepsLinkLaw : Prop :=
  ∀ s t : State, s.mlk.lawful → step s = .next t → t.mlk.lawful

/-! ### The codes of messages -/

/-- The codes of messages, written out: the result codes, code 9 being no result's; the kind of each request and of its
reply; and the code of each flag, state, mode and setting in the bodies of requests, replies and notices. -/
def Obligations.CodesOfMessages : Prop :=
  (([.ok, .badKind, .badLength, .range, .bound, .notBound, .conflict, .busy, .notPending, .noHolder] : List Result).map
     Result.code = [0, 1, 2, 3, 4, 5, 6, 7, 8, 10] ∧
   ∀ r : Result, r.code ≠ 9) ∧
  (∀ (f : Frame) (result : Result) (fields : List Byte),
     let codes (kind : RequestKind) : Byte × Byte :=
       (kind.code, (replyOf { f with kind := kind.code } result fields).kind)
     codes .status = (0x10, 0x90) ∧ codes .bind = (0x11, 0x91) ∧ codes .unbind = (0x12, 0x92) ∧
     codes .sourceQuery = (0x13, 0x93) ∧ codes .mask = (0x14, 0x94) ∧ codes .service = (0x15, 0x95) ∧
     codes .pendingList = (0x16, 0x96) ∧ codes .lineSet = (0x17, 0x97) ∧ codes .lineQuery = (0x18, 0x98) ∧
     codes .channelSet = (0x19, 0x99) ∧ codes .assign = (0x1A, 0x9A) ∧ codes .channelQuery = (0x1B, 0x9B) ∧
     codes .revoke = (0x1C, 0x9C) ∧ codes .noticeAck = (0x1D, 0x9D) ∧ codes .linkSet = (0x1E, 0x9E) ∧
     codes .resync = (0x1F, 0x9F)) ∧
  (flagCode false = 0 ∧ flagCode true = 1) ∧
  (Sense.levelHigh.code = 0 ∧ Sense.levelLow.code = 1 ∧ Sense.rise.code = 2 ∧ Sense.fall.code = 3 ∧ Sense.both.code = 4) ∧
  (SourceClass.exclusive.code = 0 ∧ SourceClass.shared.code = 1) ∧
  ((∀ l : Line, (Target.line l).code.toNat = l.val) ∧ Target.reportOnly.code = 8) ∧
  (LineMode.level.code = 0 ∧ LineMode.pulse.code = 1) ∧
  (Polarity.activeLow.code = 0 ∧ Polarity.activeHigh.code = 1) ∧
  (Drive.pushPull.code = 0 ∧ Drive.openDrain.code = 1) ∧
  (Policy.arrival.code = 0 ∧ Policy.priority.code = 1) ∧
  (rateByte .r57600 = 0 ∧ rateByte .r115200 = 1 ∧ rateByte .r230400 = 2 ∧ rateByte .r460800 = 3 ∧ rateByte .r921600 = 4) ∧
  (SourceStatus.unbound.code = 0 ∧ SourceStatus.idle.code = 1 ∧ SourceStatus.pending.code = 2) ∧
  ((Accepted.known .low).code = 0 ∧ (Accepted.known .high).code = 1 ∧ Accepted.unknown.code = 2 ∧
    Level.code .low = 0 ∧ Level.code .high = 1) ∧
  (LinePhase.quiet.code = 0 ∧ (∀ n, (LinePhase.pulse n).code = 1) ∧ ∀ n, (LinePhase.gap n).code = 2) ∧
  (LineOutput.off.code = 0 ∧ LineOutput.released.code = 1 ∧ LineOutput.asserted.code = 2) ∧
  (RequesterState.detached.code = 0 ∧ RequesterState.detached.blockCode = 0 ∧
    RequesterState.idle.code = 1 ∧ RequesterState.idle.blockCode = 0 ∧
    (∀ passes promoted, (RequesterState.waiting passes promoted).code = 2 ∧
      (RequesterState.waiting passes promoted).blockCode = 0) ∧
    (∀ units start, (RequesterState.granted units start).code = 3 ∧ (RequesterState.granted units start).blockCode = 0) ∧
    (∀ reason, (RequesterState.blocked reason).code = 4) ∧ (RequesterState.blocked .timeout).blockCode = 1 ∧
    (RequesterState.blocked .revoked).blockCode = 2 ∧ (RequesterState.blocked .reset).blockCode = 3) ∧
  (ChannelPhase.idle.code = 0 ∧ (∀ q, (ChannelPhase.held q).code = 1) ∧ ∀ q, (ChannelPhase.settling q).code = 2) ∧
  (LinkState.running.code = 0 ∧ LinkState.stalled.code = 1) ∧
  (StartCause.powerOn.code = 0 ∧ StartCause.resetLine.code = 1) ∧
  (GrantWhat.granted.code = 0 ∧ GrantWhat.ended.code = 1 ∧ GrantWhat.timeout.code = 2 ∧ GrantWhat.revoked.code = 3) ∧
  (EndReason.none.code = 0 ∧ EndReason.released.code = 1 ∧ EndReason.quota.code = 2)
end

