-- ==== Sys2Proof/Laws/Tables.lean ====
section
/-! SUPPORT. Reading a table after it was built, filled or written, and equality of tables. -/

namespace Sys2Proof

variable {n : Nat} {α : Type}

@[simp] theorem Tbl.read_build (f : Fin n → α) (i : Fin n) : (Tbl.build f).read i = f i := by
  simp [Tbl.read, Tbl.build]

@[simp] theorem Tbl.read_fill (a : α) (i : Fin n) : (Tbl.fill n a).read i = a := by
  simp [Tbl.read, Tbl.fill]

@[simp] theorem Tbl.read_write_same (t : Tbl n α) (i : Fin n) (a : α) : (t.write i a).read i = a := by
  simp [Tbl.read, Tbl.write]

theorem Tbl.read_write_of_ne (t : Tbl n α) {i j : Fin n} (a : α) (h : j ≠ i) : (t.write i a).read j = t.read j := by
  have : i.val ≠ j.val := fun e => h (Fin.ext e.symm)
  simp [Tbl.read, Tbl.write, this]

theorem Tbl.read_write (t : Tbl n α) (i j : Fin n) (a : α) :
    (t.write i a).read j = if j = i then a else t.read j := by
  split
  next h => subst h; exact Tbl.read_write_same ..
  next h => exact Tbl.read_write_of_ne _ _ h

/-- Two tables that read alike for every unit are equal. -/
theorem Tbl.ext_read {t u : Tbl n α} (h : ∀ i, t.read i = u.read i) : t = u :=
  Vector.ext fun i hi => h ⟨i, hi⟩

@[simp] theorem Tbl.write_read (t : Tbl n α) (i : Fin n) : t.write i (t.read i) = t := by
  refine Tbl.ext_read fun j => ?_
  rw [Tbl.read_write]
  split
  next h => rw [h]
  next => rfl

@[simp] theorem Tbl.write_write (t : Tbl n α) (i : Fin n) (a b : α) : (t.write i a).write i b = t.write i b := by
  refine Tbl.ext_read fun j => ?_
  simp only [Tbl.read_write]
  split <;> rfl

theorem Tbl.write_comm (t : Tbl n α) {i j : Fin n} (a b : α) (h : i ≠ j) :
    (t.write i a).write j b = (t.write j b).write i a := by
  refine Tbl.ext_read fun k => ?_
  simp only [Tbl.read_write]
  split
  next e => simp [e, Ne.symm h]
  next => rfl

@[simp] theorem Tbl.build_read (t : Tbl n α) : Tbl.build t.read = t :=
  Tbl.ext_read fun i => Tbl.read_build _ i

@[simp] theorem mem_allOf (i : Fin n) : i ∈ Machine.allOf n := List.mem_finRange i

theorem nodup_allOf : (Machine.allOf n).Nodup := List.nodup_finRange n

end Sys2Proof
end

