-- ==== Sys2Proof/Laws/Lists.lean ====
section
/-! SUPPORT. The ordered-list operations: where an inserted member stands, and what a change of the first match does. -/

namespace Sys2Proof.Machine

variable {α : Type}

/-- An inserted member stands between those that go ahead of it and the rest. -/
theorem insertBehind_spec (ahead : α → Bool) (x : α) (l : List α) :
    ∃ front back, l = front ++ back ∧ insertBehind ahead x l = front ++ x :: back ∧
      (∀ m ∈ front, ahead m = true) ∧ ∀ m ∈ back.head?, ahead m = false := by
  refine ⟨l.takeWhile ahead, l.dropWhile ahead, (List.takeWhile_append_dropWhile).symm, rfl, ?_, ?_⟩
  · intro m h
    exact List.mem_takeWhile_imp h
  · intro m h
    have := List.head?_dropWhile_not ahead l
    rw [Option.mem_def] at h
    rw [h] at this
    simpa using this

@[simp] theorem mem_insertBehind (ahead : α → Bool) (x y : α) (l : List α) :
    y ∈ insertBehind ahead x l ↔ y = x ∨ y ∈ l := by
  obtain ⟨front, back, h, e, -, -⟩ := insertBehind_spec ahead x l
  rw [e, h]
  simp only [List.mem_append, List.mem_cons]
  tauto

theorem nodup_insertBehind (ahead : α → Bool) (x : α) (l : List α) (h : l.Nodup) (hx : x ∉ l) :
    (insertBehind ahead x l).Nodup := by
  obtain ⟨front, back, hl, e, -, -⟩ := insertBehind_spec ahead x l
  rw [e, List.nodup_middle, ← hl, List.nodup_cons]
  exact ⟨hx, h⟩

@[simp] theorem insertBehind_ne_nil (ahead : α → Bool) (x : α) (l : List α) : insertBehind ahead x l ≠ [] := by
  simp [insertBehind]

/-- With every member going ahead, the new member stands at the tail. -/
theorem insertBehind_of_all {ahead : α → Bool} {l : List α} (x : α) (h : ∀ m ∈ l, ahead m = true) :
    insertBehind ahead x l = l ++ [x] := by
  simp [insertBehind, List.takeWhile_eq_self_iff.mpr h, List.dropWhile_eq_nil_iff.mpr h]

/-- The first match is changed, and nothing else. -/
theorem updateFirst_of_split {p : α → Bool} {f : α → α} {front back : List α} {x : α} (hx : p x = true)
    (hf : ∀ y ∈ front, p y = false) : updateFirst p f (front ++ x :: back) = front ++ f x :: back := by
  induction front with
  | nil => simp [updateFirst, hx]
  | cons y front ih =>
      have hy := hf y (by simp)
      simp [updateFirst, hy, ih fun z h => hf z (by simp [h])]

theorem updateFirst_of_none {p : α → Bool} {f : α → α} {l : List α} (h : ∀ y ∈ l, p y = false) :
    updateFirst p f l = l := by
  induction l with
  | nil => rfl
  | cons y l ih => simp [updateFirst, h y (by simp), ih fun z hz => h z (by simp [hz])]

@[simp] theorem length_updateFirst (p : α → Bool) (f : α → α) (l : List α) : (updateFirst p f l).length = l.length := by
  induction l with
  | nil => rfl
  | cons y l ih => by_cases h : p y = true <;> simp [updateFirst, h, ih]

/-- A list with a match splits at its first match. -/
theorem exists_first {p : α → Bool} {l : List α} (h : l.any p = true) :
    ∃ front x back, l = front ++ x :: back ∧ p x = true ∧ ∀ y ∈ front, p y = false := by
  induction l with
  | nil => simp at h
  | cons y l ih =>
      by_cases hy : p y = true
      · exact ⟨[], y, l, rfl, hy, by simp⟩
      · obtain ⟨front, x, back, e, hx, hf⟩ := ih (by simpa [hy] using h)
        refine ⟨y :: front, x, back, by simp [e], hx, ?_⟩
        intro z hz
        rcases List.mem_cons.mp hz with rfl | hz
        · simpa using hy
        · exact hf z hz

theorem any_of_split {p : α → Bool} {front back : List α} {x : α} (hx : p x = true) :
    (front ++ x :: back).any p = true := by simp [hx]

theorem eraseP_of_split {p : α → Bool} {front back : List α} {x : α} (hx : p x = true)
    (hf : ∀ y ∈ front, p y = false) : (front ++ x :: back).eraseP p = front ++ back := by
  rw [List.eraseP_append_right _ (by simpa using hf)]
  simp [hx]

theorem find?_of_split {p : α → Bool} {front back : List α} {x : α} (hx : p x = true)
    (hf : ∀ y ∈ front, p y = false) : (front ++ x :: back).find? p = some x := by
  rw [List.find?_append]
  have : front.find? p = none := by simpa using hf
  simp [this, hx]

end Sys2Proof.Machine
end

