-- ==== Sys2Proof/Laws/State.lean ====
section
/-! SUPPORT. Reading a block of the state after a block was replaced: one lemma per block and replacement. -/

namespace Sys2Proof.Machine

variable (s : State)

@[simp] theorem State.withTbu_tbu (x : Tbu) : (s.withTbu x).tbu = x := rfl
@[simp] theorem State.withTbu_scu (x : Tbu) : (s.withTbu x).scu = s.scu := rfl
@[simp] theorem State.withTbu_rtu (x : Tbu) : (s.withTbu x).rtu = s.rtu := rfl
@[simp] theorem State.withTbu_ald (x : Tbu) : (s.withTbu x).ald = s.ald := rfl
@[simp] theorem State.withTbu_nq (x : Tbu) : (s.withTbu x).nq = s.nq := rfl
@[simp] theorem State.withTbu_gar (x : Tbu) : (s.withTbu x).gar = s.gar := rfl
@[simp] theorem State.withTbu_mlk (x : Tbu) : (s.withTbu x).mlk = s.mlk := rfl
@[simp] theorem State.withTbu_pending (x : Tbu) : (s.withTbu x).pending = s.pending := rfl

@[simp] theorem State.withScu_tbu (x : Scu) : (s.withScu x).tbu = s.tbu := rfl
@[simp] theorem State.withScu_scu (x : Scu) : (s.withScu x).scu = x := rfl
@[simp] theorem State.withScu_rtu (x : Scu) : (s.withScu x).rtu = s.rtu := rfl
@[simp] theorem State.withScu_ald (x : Scu) : (s.withScu x).ald = s.ald := rfl
@[simp] theorem State.withScu_nq (x : Scu) : (s.withScu x).nq = s.nq := rfl
@[simp] theorem State.withScu_gar (x : Scu) : (s.withScu x).gar = s.gar := rfl
@[simp] theorem State.withScu_mlk (x : Scu) : (s.withScu x).mlk = s.mlk := rfl
@[simp] theorem State.withScu_pending (x : Scu) : (s.withScu x).pending = s.pending := rfl

@[simp] theorem State.withRtu_tbu (x : Rtu) : (s.withRtu x).tbu = s.tbu := rfl
@[simp] theorem State.withRtu_scu (x : Rtu) : (s.withRtu x).scu = s.scu := rfl
@[simp] theorem State.withRtu_rtu (x : Rtu) : (s.withRtu x).rtu = x := rfl
@[simp] theorem State.withRtu_ald (x : Rtu) : (s.withRtu x).ald = s.ald := rfl
@[simp] theorem State.withRtu_nq (x : Rtu) : (s.withRtu x).nq = s.nq := rfl
@[simp] theorem State.withRtu_gar (x : Rtu) : (s.withRtu x).gar = s.gar := rfl
@[simp] theorem State.withRtu_mlk (x : Rtu) : (s.withRtu x).mlk = s.mlk := rfl
@[simp] theorem State.withRtu_pending (x : Rtu) : (s.withRtu x).pending = s.pending := rfl

@[simp] theorem State.withAld_tbu (x : Ald) : (s.withAld x).tbu = s.tbu := rfl
@[simp] theorem State.withAld_scu (x : Ald) : (s.withAld x).scu = s.scu := rfl
@[simp] theorem State.withAld_rtu (x : Ald) : (s.withAld x).rtu = s.rtu := rfl
@[simp] theorem State.withAld_ald (x : Ald) : (s.withAld x).ald = x := rfl
@[simp] theorem State.withAld_nq (x : Ald) : (s.withAld x).nq = s.nq := rfl
@[simp] theorem State.withAld_gar (x : Ald) : (s.withAld x).gar = s.gar := rfl
@[simp] theorem State.withAld_mlk (x : Ald) : (s.withAld x).mlk = s.mlk := rfl
@[simp] theorem State.withAld_pending (x : Ald) : (s.withAld x).pending = s.pending := rfl

@[simp] theorem State.withNq_tbu (x : Nq) : (s.withNq x).tbu = s.tbu := rfl
@[simp] theorem State.withNq_scu (x : Nq) : (s.withNq x).scu = s.scu := rfl
@[simp] theorem State.withNq_rtu (x : Nq) : (s.withNq x).rtu = s.rtu := rfl
@[simp] theorem State.withNq_ald (x : Nq) : (s.withNq x).ald = s.ald := rfl
@[simp] theorem State.withNq_nq (x : Nq) : (s.withNq x).nq = x := rfl
@[simp] theorem State.withNq_gar (x : Nq) : (s.withNq x).gar = s.gar := rfl
@[simp] theorem State.withNq_mlk (x : Nq) : (s.withNq x).mlk = s.mlk := rfl
@[simp] theorem State.withNq_pending (x : Nq) : (s.withNq x).pending = s.pending := rfl

@[simp] theorem State.withGar_tbu (x : Gar) : (s.withGar x).tbu = s.tbu := rfl
@[simp] theorem State.withGar_scu (x : Gar) : (s.withGar x).scu = s.scu := rfl
@[simp] theorem State.withGar_rtu (x : Gar) : (s.withGar x).rtu = s.rtu := rfl
@[simp] theorem State.withGar_ald (x : Gar) : (s.withGar x).ald = s.ald := rfl
@[simp] theorem State.withGar_nq (x : Gar) : (s.withGar x).nq = s.nq := rfl
@[simp] theorem State.withGar_gar (x : Gar) : (s.withGar x).gar = x := rfl
@[simp] theorem State.withGar_mlk (x : Gar) : (s.withGar x).mlk = s.mlk := rfl
@[simp] theorem State.withGar_pending (x : Gar) : (s.withGar x).pending = s.pending := rfl

@[simp] theorem State.withMlk_tbu (x : Mlk) : (s.withMlk x).tbu = s.tbu := rfl
@[simp] theorem State.withMlk_scu (x : Mlk) : (s.withMlk x).scu = s.scu := rfl
@[simp] theorem State.withMlk_rtu (x : Mlk) : (s.withMlk x).rtu = s.rtu := rfl
@[simp] theorem State.withMlk_ald (x : Mlk) : (s.withMlk x).ald = s.ald := rfl
@[simp] theorem State.withMlk_nq (x : Mlk) : (s.withMlk x).nq = s.nq := rfl
@[simp] theorem State.withMlk_gar (x : Mlk) : (s.withMlk x).gar = s.gar := rfl
@[simp] theorem State.withMlk_mlk (x : Mlk) : (s.withMlk x).mlk = x := rfl
@[simp] theorem State.withMlk_pending (x : Mlk) : (s.withMlk x).pending = s.pending := rfl

@[simp] theorem State.withPending_tbu (x : List Instr) : (s.withPending x).tbu = s.tbu := rfl
@[simp] theorem State.withPending_scu (x : List Instr) : (s.withPending x).scu = s.scu := rfl
@[simp] theorem State.withPending_rtu (x : List Instr) : (s.withPending x).rtu = s.rtu := rfl
@[simp] theorem State.withPending_ald (x : List Instr) : (s.withPending x).ald = s.ald := rfl
@[simp] theorem State.withPending_nq (x : List Instr) : (s.withPending x).nq = s.nq := rfl
@[simp] theorem State.withPending_gar (x : List Instr) : (s.withPending x).gar = s.gar := rfl
@[simp] theorem State.withPending_mlk (x : List Instr) : (s.withPending x).mlk = s.mlk := rfl
@[simp] theorem State.withPending_pending (x : List Instr) : (s.withPending x).pending = x := rfl

theorem State.ext_blocks {s t : State} (tbu : s.tbu = t.tbu) (scu : s.scu = t.scu) (rtu : s.rtu = t.rtu) (ald : s.ald = t.ald)
    (nq : s.nq = t.nq) (gar : s.gar = t.gar) (mlk : s.mlk = t.mlk) (pending : s.pending = t.pending) : s = t := by
  cases s; cases t; simp_all

end Sys2Proof.Machine
end

