-- ==== Sys2Proof/Laws/Arbiter.lean ====
section
/-! SUPPORT. The Grant Arbiter: its records after an update, the place a join takes, and what the grant test can do. -/

namespace Sys2Proof.Machine

/-! ### Records -/

@[simp] theorem Gar.requester_setChannel (g : Gar) (c : Channel) (x : ChannelRecord) (q : Requester) :
    (g.setChannel c x).requester q = g.requester q := rfl

@[simp] theorem Gar.channel_setRequester (g : Gar) (q : Requester) (x : RequesterRecord) (c : Channel) :
    (g.setRequester q x).channel c = g.channel c := rfl

@[simp] theorem Gar.channel_setState (g : Gar) (q : Requester) (x : RequesterState) (c : Channel) :
    (g.setState q x).channel c = g.channel c := rfl

theorem Gar.channel_setChannel (g : Gar) (c d : Channel) (x : ChannelRecord) :
    (g.setChannel c x).channel d = if d = c then x else g.channel d := Tbl.read_write ..

@[simp] theorem Gar.channel_setChannel_same (g : Gar) (c : Channel) (x : ChannelRecord) :
    (g.setChannel c x).channel c = x := Tbl.read_write_same ..

theorem Gar.requester_setRequester (g : Gar) (q m : Requester) (x : RequesterRecord) :
    (g.setRequester q x).requester m = if m = q then x else g.requester m := Tbl.read_write ..

@[simp] theorem Gar.requester_setRequester_same (g : Gar) (q : Requester) (x : RequesterRecord) :
    (g.setRequester q x).requester q = x := Tbl.read_write_same ..

@[simp] theorem Gar.requester_setState_same (g : Gar) (q : Requester) (x : RequesterState) :
    (g.setState q x).requester q = { g.requester q with state := x } := Tbl.read_write_same ..

theorem Gar.requester_setState_of_ne (g : Gar) {q m : Requester} (x : RequesterState) (h : m ≠ q) :
    (g.setState q x).requester m = g.requester m := Tbl.read_write_of_ne _ _ h

/-- Two arbiters whose records are the same are equal. -/
theorem Gar.ext_records {g h : Gar} (hq : ∀ q, g.requester q = h.requester q) (hc : ∀ c, g.channel c = h.channel c) :
    g = h := by
  obtain ⟨r, c⟩ := g
  obtain ⟨r', c'⟩ := h
  exact congr (congrArg Gar.mk (Tbl.ext_read hq)) (Tbl.ext_read hc)

/-! ### Joining a wait queue (R113) -/

/-- Where a joining requester stands in a lawful queue under PRIORITY. -/
theorem Gar.enqueue_of_priority {g : Gar} {c : Channel} {q : Requester}
    (hp : (g.channel c).settings.policy = .priority)
    (hq : (g.channel c).queue.Pairwise fun m n => g.mayPrecede .priority m n = true) :
    ∃ ahead behind, (g.channel c).queue = ahead ++ behind ∧
      (∀ m ∈ ahead, (g.requester m).state.isPromoted = true ∨ (g.requester m).priority ≤ (g.requester q).priority) ∧
      (∀ m ∈ behind, (g.requester m).state.isPromoted = false ∧ (g.requester q).priority < (g.requester m).priority) ∧
      g.enqueue c q = (g.setChannel c { g.channel c with queue := ahead ++ q :: behind }).setState q (.waiting 0 false) := by
  obtain ⟨ahead, behind, hl, e, h1, h2⟩ := insertBehind_spec (g.staysAhead c q) q (g.channel c).queue
  refine ⟨ahead, behind, hl, fun m hm => by simpa [Gar.staysAhead, hp] using h1 m hm, ?_, by rw [Gar.enqueue, e]⟩
  rw [hl, List.pairwise_append] at hq
  cases behind with
  | nil => simp
  | cons x rest =>
      have hx := h2 x rfl
      simp only [Gar.staysAhead, hp, Bool.or_eq_false_iff, decide_eq_false_iff_not, not_le] at hx
      intro m hm
      rcases List.mem_cons.mp hm with rfl | hm
      · exact hx
      · have h := (List.pairwise_cons.mp hq.2.1).1 m hm
        simp only [Gar.mayPrecede, hx.1, Bool.false_or, Bool.and_eq_true, Bool.not_eq_eq_eq_not, Bool.not_true,
          decide_eq_true_eq] at h
        exact ⟨h.1, lt_of_lt_of_le hx.2 h.2⟩

/-- Under ARRIVAL a joining requester stands at the tail. -/
theorem Gar.enqueue_of_arrival {g : Gar} {c : Channel} {q : Requester} (hp : (g.channel c).settings.policy = .arrival) :
    g.enqueue c q =
      (g.setChannel c { g.channel c with queue := (g.channel c).queue ++ [q] }).setState q (.waiting 0 false) := by
  rw [Gar.enqueue, insertBehind_of_all _ fun m _ => by simp [Gar.staysAhead, hp]]

/-! ### The grant test (R117) -/

/-- The grant test grants nothing on a closed, busy or empty channel. -/
theorem Gar.grantTest_of_not {g : Gar} {c : Channel} (now : Time)
    (h : (g.channel c).settings.isOpen = false ∨ (g.channel c).phase ≠ .idle ∨ (g.channel c).queue = []) :
    g.grantTest c now = GarStep.quiet g := by
  unfold Gar.grantTest
  cases ho : (g.channel c).settings.isOpen <;> cases hp : (g.channel c).phase <;> cases hq : (g.channel c).queue <;>
    simp_all

/-- The grant test grants the head of a waiting queue on an open channel in phase IDLE. -/
theorem Gar.grantTest_of_head {g : Gar} {c : Channel} {q : Requester} {rest : List Requester} (now : Time)
    (ho : (g.channel c).settings.isOpen = true) (hp : (g.channel c).phase = .idle)
    (hq : (g.channel c).queue = q :: rest) : g.grantTest c now = g.grant c q rest now := by
  simp [Gar.grantTest, ho, hp, hq]

/-- Without aging the waiting requesters are left as they are. -/
theorem Gar.age_of_not {g : Gar} {c : Channel}
    (h : (g.channel c).settings.policy = .arrival ∨ (g.channel c).settings.ageLimit = 0) : g.age c = g := by
  unfold Gar.age
  refine if_neg fun ⟨h1, h2⟩ => ?_
  rcases h with h | h
  · simp [h] at h1
  · simp [h] at h2

@[simp] theorem GarStep.quiet_andThen (g : Gar) (f : Gar → GarStep) : (GarStep.quiet g).andThen f = f g := by
  simp [GarStep.andThen, GarStep.quiet]

end Sys2Proof.Machine
end

