-- ==== Sys2Proof/Laws/Dispatcher.lean ====
section
/-! SUPPORT. What the dispatcher does with the frame it takes, in the words of Safety.lean. -/

namespace Sys2Proof.Machine

theorem State.whenLive_of_live {s : State} (h : s.live = true) (t : State) : s.whenLive t = t := by
  simp [State.whenLive, h]

theorem State.whenLive_of_not_live {s : State} (h : s.live = false) (t : State) : s.whenLive t = s := by
  simp [State.whenLive, h]

/-- With a reply waiting, an idle transmitter starts it and a sending one goes on. -/
theorem State.startNext_of_reply {s : State} (h : s.mlk.replies ≠ []) :
    s.startNext = { s with mlk := { s.mlk with tx := if s.mlk.tx = .idle then .reply else s.mlk.tx } } := by
  obtain ⟨tbu, scu, rtu, ald, nq, gar, mlk, pending⟩ := s
  obtain ⟨receiver, buffer, replies, saved, tx, settings, lineRate, counters, sender⟩ := mlk
  cases tx <;> simp_all [State.startNext, State.withMlk]

/-- The reply of an executed request is formed, saved and queued, and started at an idle transmitter. -/
theorem State.finish_takeFrame (u : State) (f : Frame) (r : Result) (fields : List Byte) (rate : Option RateCode) :
    State.finish f { state := u.takeFrame, result := r, fields := fields, rateSwitch := rate } =
      u.answered f r fields rate := by
  unfold State.finish
  rw [State.startNext_of_reply (by simp [Mlk.queueReply])]
  rfl

/-- The frame the dispatcher takes next, when one is ready. -/
theorem State.nextFrame_of_ready {s : State} {f : Frame} (h : s.ready f) : s.nextFrame = some f := by
  obtain ⟨-, hr, hb⟩ := h
  unfold State.nextFrame
  rw [if_pos (show s.mlk.replies.length < Config.replyCapacity from hr)]
  cases hbuf : s.mlk.buffer with
  | nil => simp [hbuf] at hb
  | cons b rest =>
      rw [hbuf] at hb
      simp only [List.head?_cons, Option.some.injEq] at hb
      simp [hb]

/-- A request that is taken is executed by its owner. -/
theorem State.execute_of_takes {s : State} {kind : RequestKind} {f : Frame} (h : s.takes kind f)
    (owner : List Byte → State → Answer) :
    s.whenLive (s.execute kind owner) = State.finish f (owner f.body s.takeFrame) := by
  obtain ⟨hready, hkind, hdup⟩ := h
  rw [State.whenLive_of_live hready.1]
  unfold State.execute
  rw [State.nextFrame_of_ready hready]
  refine if_pos ⟨hkind, ?_⟩
  rcases hdup with rfl | hdup
  · simp [State.isDuplicate, hkind]
  · simp [State.isDuplicate, hdup]

/-- A refused request changes nothing but for its reply. -/
theorem State.finish_refuse (s : State) (f : Frame) (r : Result) :
    State.finish f (s.takeFrame.refuse r) = s.answered f r [] none :=
  State.finish_takeFrame ..

/-- An accepted request answers OK with its fields. -/
theorem State.finish_accept (s : State) (f : Frame) (fields : List Byte) :
    State.finish f (s.takeFrame.accept fields) = s.answered f .ok fields none :=
  State.finish_takeFrame ..

/-- A frame that no request command takes leaves the state as it is. -/
theorem State.execute_of_not {s : State} {kind : RequestKind} {owner : List Byte → State → Answer}
    (h : ∀ f, s.nextFrame = some f → f.kind = kind.code → s.isDuplicate f = true) : s.execute kind owner = s := by
  unfold State.execute
  cases hf : s.nextFrame with
  | none => rfl
  | some f =>
      refine if_neg fun ⟨hk, hd⟩ => ?_
      simp [h f hf hk] at hd

theorem isRequestKind_code (kind : RequestKind) : isRequestKind kind.code = true := by cases kind <;> rfl

/-- The frame that the dispatcher takes next on a STALLED link is no request. -/
theorem State.nextFrame_of_stalled {s : State} {f : Frame} (hs : s.senderLawful) (hl : s.mlk.sender.link = .stalled)
    (h : s.nextFrame = some f) : isRequestKind f.kind = false := by
  have hb := (hs.2.2.2.2 hl).2.2.2
  unfold State.nextFrame at h
  cases hbuf : s.mlk.buffer with
  | nil => simp [hbuf] at h
  | cons b rest =>
      rw [hbuf] at h hb
      cases hi : b.indication with
      | true => simp [hi] at h
      | false =>
          obtain ⟨-, rfl⟩ : _ ∧ b.frame = f := by simpa [hi] using h
          by_contra hk
          have := hb b (by simp) (by simpa using hk)
          rw [hi] at this
          cases this

/-- No request is executed on a STALLED link. -/
theorem State.execute_of_stalled {s : State} (hs : s.senderLawful) (hl : s.mlk.sender.link = .stalled)
    (kind : RequestKind) (owner : List Byte → State → Answer) : s.execute kind owner = s :=
  State.execute_of_not fun f hf hk => by
    have hn := State.nextFrame_of_stalled hs hl hf
    rw [hk, isRequestKind_code] at hn
    cases hn

end Sys2Proof.Machine
end

