-- ==== Sys2Proof/Laws/Queue.lean ====
section
/-! SUPPORT. The notice queue and the transmitter: what taking a post, removing an entry, offering a number and starting a
frame leave as it was. -/

namespace Sys2Proof.Machine

/-! ### The queue -/

@[simp] theorem Nq.posts_recordLoss (n : Nq) (now : Time) : (n.recordLoss now).posts = n.posts := by
  unfold Nq.recordLoss
  split <;> rfl

@[simp] theorem Nq.length_recordLoss (n : Nq) (now : Time) : (n.recordLoss now).queue.length = n.queue.length := by
  unfold Nq.recordLoss
  split <;> simp

@[simp] theorem Nq.posts_takePost (n : Nq) (now : Time) (p : Post) : (n.takePost now p).posts = n.posts := by
  cases p <;> simp only [Nq.takePost, Nq.takeSource, Nq.takeGrant] <;> repeat' split
  all_goals first | rfl | simp

/-- A post never takes the queue past its capacity. -/
theorem Nq.length_takePost_le (n : Nq) (now : Time) (p : Post) (h : n.queue.length ≤ Config.queueCapacity) :
    (n.takePost now p).queue.length ≤ Config.queueCapacity := by
  cases p <;> simp only [Nq.takePost, Nq.takeSource, Nq.takeGrant] <;> repeat' split
  all_goals simp [Nq.append, h]
  all_goals omega

@[simp] theorem Nq.posts_carry (n : Nq) : n.carry.posts = n.posts := by
  unfold Nq.carry
  repeat' split
  all_goals rfl

@[simp] theorem Nq.posts_removeFirst (n : Nq) (p : Entry → Bool) : (n.removeFirst p).posts = n.posts := by
  unfold Nq.removeFirst
  split <;> simp

theorem Nq.removeFirst_of_none (n : Nq) {p : Entry → Bool} (h : ∀ e ∈ n.queue, p e = false) : n.removeFirst p = n := by
  unfold Nq.removeFirst
  rw [if_neg]
  simpa using h

/-- The first entry that satisfies the test leaves, and the carry follows. -/
theorem Nq.removeFirst_of_split (n : Nq) {p : Entry → Bool} {before after : List Entry} {e : Entry}
    (h : n.queue = before ++ e :: after) (he : p e = true) (hb : ∀ x ∈ before, p x = false) :
    n.removeFirst p = Nq.carry { n with queue := before ++ after } := by
  unfold Nq.removeFirst
  rw [h, any_of_split he, if_pos rfl, eraseP_of_split he hb]

/-! ### The merge of RESYNC -/

/-- An entry that the next one does not merge into stands before the outcome. -/
theorem mergeEntry_cons_of_not {first : Entry} {kept : List Entry} {e : Entry}
    (hs : ∀ source count level time, e.body = .sourceEvent source count level time → first.isUnsentOf source = false)
    (hl : ∀ count time, e.body = .loss count time → first.isUnsentLoss = false) :
    mergeEntry (first :: kept) e = first :: mergeEntry kept e := by
  unfold mergeEntry
  split
  next hb =>
    simp only [List.any_cons, hs _ _ _ _ hb, Bool.false_or, updateFirst]
    split <;> simp
  next hb =>
    simp only [List.any_cons, hl _ _ hb, Bool.false_or, updateFirst]
    split <;> simp
  next => simp
  next => simp

/-- A START or GRANT_EVENT entry at the head stays there, and nothing merges into it. -/
theorem foldl_mergeEntry_of_kept {first : Entry} (hs : first.source = none) (hl : first.isLoss = false)
    (kept rest : List Entry) : rest.foldl mergeEntry (first :: kept) = first :: rest.foldl mergeEntry kept := by
  induction rest generalizing kept with
  | nil => rfl
  | cons e rest ih =>
      rw [List.foldl_cons, List.foldl_cons, mergeEntry_cons_of_not, ih]
      · exact fun _ _ _ _ _ => by simp [Entry.isUnsentOf, hs]
      · exact fun _ _ _ => by simp [Entry.isUnsentLoss, hl]

/-- The entries that are merged are all UNSENT. -/
theorem delivery_of_mem_revertAll {queue : List Entry} {e : Entry} (h : e ∈ revertAll queue) : e.delivery = .unsent := by
  obtain ⟨x, -, rfl⟩ := List.mem_map.mp h
  rfl

/-! ### The number offered -/

/-- The number found passes over numbers that are carried, and is not carried itself unless the search ran out. -/
theorem offerNumber_spec (carried : List Byte) (fuel : Nat) (n : Byte) :
    ∃ passed ≤ fuel, offerNumber carried fuel n = nextNotice^[passed] n ∧
      (∀ k < passed, nextNotice^[k] n ∈ carried) ∧ (passed < fuel → nextNotice^[passed] n ∉ carried) := by
  induction fuel generalizing n with
  | zero => exact ⟨0, le_refl _, rfl, by simp, by simp⟩
  | succ fuel ih =>
      by_cases h : n ∈ carried
      · obtain ⟨p, hp, h1, h2, h3⟩ := ih (nextNotice n)
        refine ⟨p + 1, by omega, ?_, ?_, ?_⟩
        · rw [offerNumber, if_pos h, h1, Function.iterate_succ_apply]
        · intro k hk
          cases k with
          | zero => exact h
          | succ k => rw [Function.iterate_succ_apply]; exact h2 k (by omega)
        · intro hp'
          rw [Function.iterate_succ_apply]
          exact h3 (by omega)
      · exact ⟨0, by omega, by rw [offerNumber, if_neg h]; rfl, by simp, fun _ => h⟩

/-! ### The transmitter -/

theorem State.startNext_of_claim {s : State} (h : s.mlk.tx = .idle) (hr : s.mlk.replies = []) :
    s.startNext = if s.noticeClaim then s.startNotice else s := by
  simp only [State.startNext, h, hr, List.isEmpty_nil, if_true]

/-- Starting a frame changes the queue's deliveries, what is being sent, the next number, the round list and the timer
alone. -/
theorem State.startNext_frame (s : State) : ∃ queue tx nextNumber roundList timer,
    s.startNext = { s with
      nq := { s.nq with queue := queue }
      mlk := { s.mlk with
        tx := tx
        sender := { s.mlk.sender with nextNumber := nextNumber, roundList := roundList, timer := timer } } } := by
  unfold State.startNext State.startNotice State.resend State.firstSending
  repeat' split
  all_goals exact ⟨_, _, _, _, _, rfl⟩

@[simp] theorem State.tbu_startNext (s : State) : s.startNext.tbu = s.tbu := by
  obtain ⟨_, _, _, _, _, h⟩ := s.startNext_frame
  rw [h]

@[simp] theorem State.scu_startNext (s : State) : s.startNext.scu = s.scu := by
  obtain ⟨_, _, _, _, _, h⟩ := s.startNext_frame
  rw [h]

@[simp] theorem State.rtu_startNext (s : State) : s.startNext.rtu = s.rtu := by
  obtain ⟨_, _, _, _, _, h⟩ := s.startNext_frame
  rw [h]

@[simp] theorem State.ald_startNext (s : State) : s.startNext.ald = s.ald := by
  obtain ⟨_, _, _, _, _, h⟩ := s.startNext_frame
  rw [h]

@[simp] theorem State.gar_startNext (s : State) : s.startNext.gar = s.gar := by
  obtain ⟨_, _, _, _, _, h⟩ := s.startNext_frame
  rw [h]

@[simp] theorem State.pending_startNext (s : State) : s.startNext.pending = s.pending := by
  obtain ⟨_, _, _, _, _, h⟩ := s.startNext_frame
  rw [h]

@[simp] theorem State.posts_startNext (s : State) : s.startNext.nq.posts = s.nq.posts := by
  obtain ⟨_, _, _, _, _, h⟩ := s.startNext_frame
  rw [h]

@[simp] theorem State.replies_startNext (s : State) : s.startNext.mlk.replies = s.mlk.replies := by
  obtain ⟨_, _, _, _, _, h⟩ := s.startNext_frame
  rw [h]

@[simp] theorem State.buffer_startNext (s : State) : s.startNext.mlk.buffer = s.mlk.buffer := by
  obtain ⟨_, _, _, _, _, h⟩ := s.startNext_frame
  rw [h]

/-- Taking a post keeps the commands, the clock and the receive side. -/
theorem State.takePost_frame (s : State) (p : Post) :
    (s.takePost p).pending = s.pending ∧ (s.takePost p).tbu = s.tbu ∧ (s.takePost p).gar = s.gar ∧
      (s.takePost p).ald = s.ald ∧ (s.takePost p).mlk.buffer = s.mlk.buffer ∧
      (s.takePost p).mlk.replies = s.mlk.replies := by
  unfold State.takePost
  simp only [State.pending_startNext, State.tbu_startNext, State.gar_startNext, State.ald_startNext,
    State.buffer_startNext, State.replies_startNext]
  exact ⟨rfl, rfl, rfl, rfl, rfl, rfl⟩

end Sys2Proof.Machine
end

