-- ==== Sys2Proof/Laws/Receiver.lean ====
section
/-! SUPPORT. The receiver: what a character does in each phase, and what a good frame does to the receive buffer. -/

namespace Sys2Proof.Machine

theorem Receiving.take_hunt_sync : Receiving.take 0xC3 .hunt = (.kind, .none) := rfl

theorem Receiving.take_hunt_other {b : Byte} (h : b ≠ 0xC3) : Receiving.take b .hunt = (.hunt, .none) := by
  dsimp only [Receiving.take]
  rw [if_neg (show ¬ b = Config.sync from h)]

theorem Receiving.take_length_zero (k t : Byte) : Receiving.take 0 (.length k t) = (.checkHigh k t 0 [], .none) := rfl

theorem Receiving.take_length_body {b : Byte} (k t : Byte) (h1 : 1 ≤ b.toNat) (h2 : b.toNat ≤ 40) :
    Receiving.take b (.length k t) = (.body k t b [], .none) := by
  dsimp only [Receiving.take]
  rw [if_neg (show ¬ Config.maxBody < b.toNat from Nat.not_lt.mpr h2), if_neg]
  rintro rfl
  simp at h1

theorem Receiving.take_length_error {b : Byte} (k t : Byte) (h : 40 < b.toNat) :
    Receiving.take b (.length k t) = (.hunt, .lengthError) := by
  dsimp only [Receiving.take]
  rw [if_pos (show Config.maxBody < b.toNat from h)]

theorem Receiving.take_body_more {b n : Byte} {sofar : List Byte} (k t : Byte) (h : sofar.length + 1 < n.toNat) :
    Receiving.take b (.body k t n sofar) = (.body k t n (sofar ++ [b]), .none) := by
  dsimp only [Receiving.take]
  rw [if_neg (by simpa using h)]

theorem Receiving.take_body_last {b n : Byte} {sofar : List Byte} (k t : Byte) (h : sofar.length + 1 = n.toNat) :
    Receiving.take b (.body k t n sofar) = (.checkHigh k t n (sofar ++ [b]), .none) := by
  dsimp only [Receiving.take]
  rw [if_pos (by simp [← h])]

theorem Receiving.take_check_good {b high k t n : Byte} {bytes : List Byte}
    (h : crc16 (k :: t :: n :: bytes) = high ++ b) :
    Receiving.take b (.checkLow k t n bytes high) = (.hunt, .good { kind := k, tag := t, body := bytes }) :=
  if_pos h

theorem Receiving.take_check_bad {b high k t n : Byte} {bytes : List Byte}
    (h : crc16 (k :: t :: n :: bytes) ≠ high ++ b) :
    Receiving.take b (.checkLow k t n bytes high) = (.hunt, .checkError) :=
  if_neg h

/-- A character, with the phase it leads to and what it completes. -/
theorem Mlk.receive_eq {m : Mlk} {b : Byte} {next : Receiving} {e : RxEvent}
    (h : m.receiver.receiving.take b = (next, e)) :
    m.receive b = Mlk.rxEvent { m with receiver := { m.receiver with
      receiving := next, gapTimer := next.inFrame, inCharacter := false } } e := by
  simp [Mlk.receive, h]

theorem Mlk.offer_of_room {m : Mlk} (f : Frame) (h : m.buffer.length < 2) :
    m.offer f = { m with buffer := m.buffer ++ [Buffered.handed f] } :=
  if_pos h

theorem Mlk.offer_of_full {m : Mlk} (f : Frame) (h : 2 ≤ m.buffer.length) :
    m.offer f = { m with counters := { m.counters with overruns := satInc m.counters.overruns } } :=
  if_neg (Nat.not_lt.mpr h)

end Sys2Proof.Machine
end

