-- ==== Sys2Proof/Laws/Routing.lean ====
section
/-! SUPPORT. The Routing Unit: what a join, a leave, an event and a report can do, and what of it reaches the other blocks. -/

namespace Sys2Proof.Machine

/-! ### Records and sets -/

@[simp] theorem Rtu.record_withReports (r : Rtu) (reports : List LevelReport) (m : Source) :
    Rtu.record { r with reports := reports } m = r.record m := rfl

@[simp] theorem Rtu.sets_setRecord (r : Rtu) (source : Source) (x : BindingRecord) :
    (r.setRecord source x).sets = r.sets := rfl

@[simp] theorem Rtu.reports_setRecord (r : Rtu) (source : Source) (x : BindingRecord) :
    (r.setRecord source x).reports = r.reports := rfl

theorem Rtu.record_setRecord (r : Rtu) (source m : Source) (x : BindingRecord) :
    (r.setRecord source x).record m = if m = source then x else r.record m := Tbl.read_write ..

@[simp] theorem Rtu.record_setRecord_same (r : Rtu) (source : Source) (x : BindingRecord) :
    (r.setRecord source x).record source = x := Tbl.read_write_same ..

theorem Rtu.record_join (r : Rtu) (source m : Source) (l : Line) :
    (r.join source l).record m = if m = source then { r.record source with status := .pending } else r.record m :=
  Tbl.read_write ..

theorem Rtu.record_leave (r : Rtu) (source m : Source) (l : Line) :
    (r.leave source l).record m = if m = source then { r.record source with status := .idle } else r.record m :=
  Tbl.read_write ..

@[simp] theorem Rtu.reports_join (r : Rtu) (source : Source) (l : Line) : (r.join source l).reports = r.reports := rfl

@[simp] theorem Rtu.reports_leave (r : Rtu) (source : Source) (l : Line) : (r.leave source l).reports = r.reports := rfl

theorem Rtu.sets_join_of_ne (r : Rtu) (source : Source) {l m : Line} (h : m ≠ l) :
    (r.join source l).sets.read m = r.sets.read m := Tbl.read_write_of_ne _ _ h

theorem Rtu.sets_leave_of_ne (r : Rtu) (source : Source) {l m : Line} (h : m ≠ l) :
    (r.leave source l).sets.read m = r.sets.read m := Tbl.read_write_of_ne _ _ h

@[simp] theorem Rtu.sets_leave_same (r : Rtu) (source : Source) (l : Line) :
    (r.leave source l).sets.read l = (r.sets.read l).erase source := Tbl.read_write_same ..

/-- Where the joining source stands in a set that is ordered by priority. -/
theorem Rtu.sets_join_same (r : Rtu) (source : Source) (l : Line)
    (h : (r.sets.read l).Pairwise fun m n => (r.record m).priority ≤ (r.record n).priority) :
    ∃ ahead behind, r.joinsBetween source l ahead behind ∧
      (r.join source l).sets.read l = ahead ++ source :: behind := by
  obtain ⟨ahead, behind, hl, e, h1, h2⟩ := insertBehind_spec (r.staysAhead source) source (r.sets.read l)
  refine ⟨ahead, behind, ⟨hl, fun m hm => by simpa [Rtu.staysAhead] using h1 m hm, ?_⟩,
    (Tbl.read_write_same ..).trans e⟩
  rw [hl, List.pairwise_append] at h
  cases behind with
  | nil => simp
  | cons x rest =>
      have hx : (r.record source).priority < (r.record x).priority := by simpa [Rtu.staysAhead] using h2 x rfl
      intro m hm
      rcases List.mem_cons.mp hm with rfl | hm
      · exact hx
      · exact lt_of_lt_of_le hx ((List.pairwise_cons.mp h.2.1).1 m hm)

/-- A join, with the place the source takes. -/
theorem Rtu.join_eq (r : Rtu) (source : Source) (l : Line)
    (h : (r.sets.read l).Pairwise fun m n => (r.record m).priority ≤ (r.record n).priority) :
    ∃ ahead behind, r.joinsBetween source l ahead behind ∧
      r.join source l = { r with
        sets := r.sets.write l (ahead ++ source :: behind)
        records := r.records.write source { r.record source with status := .pending } } := by
  obtain ⟨ahead, behind, h1, h2⟩ := r.sets_join_same source l h
  refine ⟨ahead, behind, h1, ?_⟩
  rw [← h2]
  simp [Rtu.join]

/-! ### Events -/

theorem BindingRecord.isBound_iff {x : BindingRecord} : x.isBound = true ↔ x.status ≠ .unbound := by
  simp [BindingRecord.isBound]

theorem BindingRecord.isBound_eq_false {x : BindingRecord} : x.isBound = false ↔ x.status = .unbound := by
  simp [BindingRecord.isBound]

/-- An event of a masked source is held. -/
theorem Rtu.event_of_masked {r : Rtu} {p : SourcePost} (hb : (r.record p.source).status ≠ .unbound)
    (hm : (r.record p.source).mask = true) :
    r.event p = RtuStep.quiet (r.setRecord p.source { r.record p.source with held := true }) := by
  simp [Rtu.event, BindingRecord.isBound, hb, hm]

/-- An event of an unmasked REPORT_ONLY source is posted alone. -/
theorem Rtu.event_of_reportOnly {r : Rtu} {p : SourcePost} (hb : (r.record p.source).status ≠ .unbound)
    (hm : (r.record p.source).mask = false) (ht : (r.record p.source).target = .reportOnly) :
    r.event p = { rtu := r, triggers := [], posts := if (r.record p.source).report then [p] else [] } := by
  simp [Rtu.event, BindingRecord.isBound, hb, hm, ht, RtuStep.quiet]

/-- An event of an unmasked PENDING source sets again. -/
theorem Rtu.event_of_pending {r : Rtu} {p : SourcePost} {l : Line} (hp : (r.record p.source).status = .pending)
    (hm : (r.record p.source).mask = false) (ht : (r.record p.source).target = .line l) :
    r.event p = { rtu := r.setRecord p.source { r.record p.source with again := true }, triggers := [],
                  posts := if (r.record p.source).report then [p] else [] } := by
  simp [Rtu.event, BindingRecord.isBound, hp, hm, ht, RtuStep.quiet]

/-- An event of an unmasked IDLE source with a line target joins. -/
theorem Rtu.event_of_idle {r : Rtu} {p : SourcePost} {l : Line} (hi : (r.record p.source).status = .idle)
    (hm : (r.record p.source).mask = false) (ht : (r.record p.source).target = .line l) :
    r.event p = { rtu := r.join p.source l, triggers := [{ kind := .join, line := l }],
                  posts := if (r.record p.source).report then [p] else [] } := by
  simp [Rtu.event, BindingRecord.isBound, hi, hm, ht, Rtu.joinWithTrigger]

/-- A report that is an event of a bound source. -/
theorem Rtu.takeReport_of_event {r : Rtu} {rep : LevelReport} (hb : (r.record rep.source).status ≠ .unbound)
    (he : (r.record rep.source).sense.isEvent rep.previous rep.new = true) :
    r.takeReport rep = r.event { source := rep.source, level := rep.new, time := rep.time } := by
  simp [Rtu.takeReport, BindingRecord.isBound, hb, he]

/-- A report that is no event. -/
theorem Rtu.takeReport_of_not {r : Rtu} {rep : LevelReport}
    (h : (r.record rep.source).status = .unbound ∨ (r.record rep.source).sense.isEvent rep.previous rep.new = false) :
    r.takeReport rep = RtuStep.quiet r := by
  rcases h with h | h <;> simp [Rtu.takeReport, BindingRecord.isBound, h]

/-- The oldest report of a source is taken, and the others keep their order. -/
theorem Rtu.takeOldestReport_eq {r : Rtu} {before after : List LevelReport} {rep : LevelReport}
    (h : r.oldestReport before rep after) :
    r.takeOldestReport rep.source = Rtu.takeReport { r with reports := before ++ after } rep := by
  let p : LevelReport → Bool := fun x => decide (x.source = rep.source)
  have hp : p rep = true := by simp [p]
  have hf : ∀ y ∈ before, p y = false := fun y hy => by simpa [p] using h.2 y hy
  unfold Rtu.takeOldestReport
  rw [h.1, find?_of_split (p := p) hp hf]
  simp only
  rw [eraseP_of_split (p := p) hp hf]

/-- With no report of the source waiting, none is taken first. -/
theorem Rtu.takeReportsOf_of_none {r : Rtu} {source : Source} (h : r.noReportOf source) :
    r.takeReportsOf source = RtuStep.quiet r := by
  have h1 : r.reports.filter (fun rep => decide (rep.source = source)) = [] := by
    simpa [List.filter_eq_nil_iff] using h
  have h2 : r.reports.filter (fun rep => !decide (rep.source = source)) = r.reports := by
    simpa [List.filter_eq_self] using h
  simp [Rtu.takeReportsOf, h1, h2]

theorem Rtu.takeReportsIf_of_none {r : Rtu} {source : Source} (h : r.noReportOf source) (reads : Bool) :
    r.takeReportsIf reads source = RtuStep.quiet r := by
  unfold Rtu.takeReportsIf
  split
  · exact Rtu.takeReportsOf_of_none h
  · rfl

@[simp] theorem RtuStep.quiet_andThen (r : Rtu) (f : Rtu → RtuStep) : (RtuStep.quiet r).andThen f = f r := by
  simp [RtuStep.andThen, RtuStep.quiet]

/-! ### Waiting reports taken first -/

theorem RtuStep.andThen_quiet (x : RtuStep) : x.andThen RtuStep.quiet = x := by
  simp [RtuStep.andThen, RtuStep.quiet]

theorem RtuStep.andThen_assoc (x : RtuStep) (f g : Rtu → RtuStep) :
    (x.andThen f).andThen g = x.andThen fun r => (f r).andThen g := by
  simp [RtuStep.andThen]

/-- Taking a report neither reads nor changes the reports that wait. -/
theorem Rtu.takeReport_withReports (r : Rtu) (reports : List LevelReport) (rep : LevelReport) :
    Rtu.takeReport { r with reports := reports } rep =
      { r.takeReport rep with rtu := { (r.takeReport rep).rtu with reports := reports } } := by
  by_cases hn : (r.record rep.source).status = .unbound ∨
      (r.record rep.source).sense.isEvent rep.previous rep.new = false
  · rw [Rtu.takeReport_of_not (r := { r with reports := reports }) hn, Rtu.takeReport_of_not hn]
    rfl
  obtain ⟨hb, he⟩ := not_or.mp hn
  have he : (r.record rep.source).sense.isEvent rep.previous rep.new = true := by simpa using he
  rw [Rtu.takeReport_of_event (r := { r with reports := reports }) hb he, Rtu.takeReport_of_event hb he]
  cases hm : (r.record rep.source).mask with
  | true =>
      rw [Rtu.event_of_masked (r := { r with reports := reports }) (p := ⟨_, _, _⟩) hb hm,
        Rtu.event_of_masked (p := ⟨_, _, _⟩) hb hm]
      rfl
  | false =>
      cases ht : (r.record rep.source).target with
      | reportOnly =>
          rw [Rtu.event_of_reportOnly (r := { r with reports := reports }) (p := ⟨_, _, _⟩) hb hm ht,
            Rtu.event_of_reportOnly (p := ⟨_, _, _⟩) hb hm ht]
          rfl
      | line l =>
          cases hs : (r.record rep.source).status with
          | unbound => exact absurd hs hb
          | idle =>
              rw [Rtu.event_of_idle (r := { r with reports := reports }) (p := ⟨_, _, _⟩) hs hm ht,
                Rtu.event_of_idle (p := ⟨_, _, _⟩) hs hm ht]
              rfl
          | pending =>
              rw [Rtu.event_of_pending (r := { r with reports := reports }) (p := ⟨_, _, _⟩) hs hm ht,
                Rtu.event_of_pending (p := ⟨_, _, _⟩) hs hm ht]
              rfl

theorem Rtu.foldl_takeReport (reports : List LevelReport) (x : RtuStep) :
    reports.foldl (fun x rep => x.andThen fun r => r.takeReport rep) x =
      x.andThen fun r => reports.foldl (fun x rep => x.andThen fun r => r.takeReport rep) (RtuStep.quiet r) := by
  induction reports generalizing x with
  | nil => exact (RtuStep.andThen_quiet x).symm
  | cons rep rest ih =>
      simp only [List.foldl_cons]
      rw [ih, RtuStep.andThen_assoc]
      congr 1
      funext r
      rw [RtuStep.quiet_andThen, ← ih]

/-- The waiting reports of a source are taken from the oldest on. -/
theorem Rtu.takeReportsOf_of_oldest {r : Rtu} {before after : List LevelReport} {rep : LevelReport}
    (h : r.oldestReport before rep after) :
    r.takeReportsOf rep.source = (r.takeOldestReport rep.source).andThen fun r => r.takeReportsOf rep.source := by
  have hb : before.filter (fun x => decide (x.source = rep.source)) = [] := by
    simpa [List.filter_eq_nil_iff] using h.2
  have hb' : before.filter (fun x => !decide (x.source = rep.source)) = before := by
    simpa [List.filter_eq_self] using h.2
  rw [Rtu.takeOldestReport_eq h]
  unfold Rtu.takeReportsOf
  rw [h.1]
  simp only [List.filter_append, hb, hb', List.filter_cons, decide_true, if_true, Bool.not_true, Bool.false_eq_true,
    if_false, List.nil_append, List.foldl_cons, RtuStep.quiet_andThen]
  rw [Rtu.foldl_takeReport, Rtu.takeReport_withReports r, Rtu.takeReport_withReports r (before ++ after)]
  simp [RtuStep.andThen, hb, hb']

/-- Every report of a source has been taken, or one of them is the oldest. -/
theorem Rtu.noReportOf_or_oldest (r : Rtu) (source : Source) :
    r.noReportOf source ∨ ∃ before rep after, rep.source = source ∧ r.oldestReport before rep after := by
  unfold Rtu.noReportOf Rtu.oldestReport
  induction r.reports with
  | nil => exact Or.inl (by simp)
  | cons x rest ih =>
      by_cases hx : x.source = source
      · exact Or.inr ⟨[], x, rest, hx, rfl, by simp⟩
      · refine ih.imp ?_ ?_
        · exact fun h => List.forall_mem_cons.mpr ⟨hx, h⟩
        · rintro ⟨before, rep, after, rfl, h, hb⟩
          exact ⟨x :: before, rep, after, rfl, by rw [h]; rfl, List.forall_mem_cons.mpr ⟨hx, hb⟩⟩

theorem Rtu.takeOldestReport_of_none {r : Rtu} {source : Source} (h : r.noReportOf source) :
    r.takeOldestReport source = RtuStep.quiet r := by
  unfold Rtu.takeOldestReport
  rw [List.find?_eq_none.mpr (by simpa using h)]

/-! ### Effect on the state -/

theorem Rtu.nonempty_eq (r : Rtu) (l : Line) : r.nonempty l = decide (r.sets.read l ≠ []) := by
  unfold Rtu.nonempty
  cases r.sets.read l <;> rfl

/-- No set changes between empty and nonempty when the sets stay as they are. -/
theorem Rtu.occupancyChanges_of_same {before after : Rtu} (h : after.sets = before.sets) :
    before.occupancyChanges after = [] := by
  simp [Rtu.occupancyChanges, Rtu.nonempty, h]

/-- The occupancy changes when one set alone may have changed. -/
theorem Rtu.occupancyChanges_of_one {before after : Rtu} (l : Line)
    (h : ∀ m, m ≠ l → after.sets.read m = before.sets.read m) :
    before.occupancyChanges after = if (before.sets.read l = []) ↔ (after.sets.read l = []) then [] else [l] := by
  have key : before.occupancyChanges after = (allOf 8).filter fun m =>
      decide (m = l) && decide (¬ ((before.sets.read l = []) ↔ (after.sets.read l = []))) := by
    unfold Rtu.occupancyChanges
    refine List.filter_congr fun m _ => ?_
    simp only [Rtu.nonempty_eq]
    by_cases hm : m = l
    · subst hm
      by_cases h1 : before.sets.read m = [] <;> by_cases h2 : after.sets.read m = [] <;> simp [h1, h2]
    · simp [hm, h m hm]
  have single : ∀ l : Line, (allOf 8).filter (fun m => decide (m = l)) = [l] := by decide
  rw [key]
  split
  next hb => simp [hb]
  next hb => simpa [hb] using single l

/-- An event that leaves the sets as they are. -/
theorem State.applyRtu_of_same {s : State} {x : RtuStep} (h : x.rtu.sets = s.rtu.sets) :
    s.applyRtu x = { s with
      rtu := x.rtu
      ald := { s.ald with triggers := s.ald.triggers ++ x.triggers }
      nq := { s.nq with posts := s.nq.posts ++ x.posts.map Post.source } } := by
  simp [State.applyRtu, Rtu.occupancyChanges_of_same h, Nq.hand]

/-- A silent event that leaves the sets as they are. -/
theorem State.applyRtu_quiet_of_same {s : State} {r : Rtu} (h : r.sets = s.rtu.sets) :
    s.applyRtu (RtuStep.quiet r) = { s with rtu := r } := by
  rw [State.applyRtu_of_same (show (RtuStep.quiet r).rtu.sets = s.rtu.sets from h)]
  simp [RtuStep.quiet]

/-- Two events one after another, when the first leaves the sets as they are. -/
theorem State.applyRtu_andThen {s : State} {x : RtuStep} (f : Rtu → RtuStep) (h : x.rtu.sets = s.rtu.sets) :
    (s.applyRtu x).applyRtu (f x.rtu) = s.applyRtu (x.andThen f) := by
  have hc : ∀ r : Rtu, x.rtu.occupancyChanges r = s.rtu.occupancyChanges r := fun r => by
    simp [Rtu.occupancyChanges, Rtu.nonempty, h]
  simp [State.applyRtu, RtuStep.andThen, Rtu.occupancyChanges_of_same h, hc, Nq.hand]

/-- The evaluation of the internal sources leaves everything but their levels and the reports. -/
theorem State.evaluate_eq (s : State) : ∃ new, s.evaluate = { s with
    scu := { s.scu with internal := Tbl.build s.conditionLevel }
    rtu := { s.rtu with reports := s.rtu.reports ++ new } } := ⟨_, rfl⟩

@[simp] theorem State.evaluate_nq (s : State) : s.evaluate.nq = s.nq := rfl
@[simp] theorem State.evaluate_gar (s : State) : s.evaluate.gar = s.gar := rfl
@[simp] theorem State.evaluate_mlk (s : State) : s.evaluate.mlk = s.mlk := rfl
@[simp] theorem State.evaluate_ald (s : State) : s.evaluate.ald = s.ald := rfl
@[simp] theorem State.evaluate_tbu (s : State) : s.evaluate.tbu = s.tbu := rfl
@[simp] theorem State.evaluate_pending (s : State) : s.evaluate.pending = s.pending := rfl
@[simp] theorem State.evaluate_records (s : State) : s.evaluate.rtu.records = s.rtu.records := rfl
@[simp] theorem State.evaluate_sets (s : State) : s.evaluate.rtu.sets = s.rtu.sets := rfl
@[simp] theorem State.evaluate_conditioners (s : State) : s.evaluate.scu.conditioners = s.scu.conditioners := rfl

end Sys2Proof.Machine
end

