-- ==== Sys2Proof/WellFormed.lean ====
section
/-! DEFINITION. Which commands are well formed. The types of the operands bound every unit number; the one check left is
the length byte of LENGTH_ERROR, which is by definition above 40 (R135). -/

namespace Sys2Proof

/-- A command whose operands are in the range its row gives. -/
def Instr.wellFormed : Instr → Bool
  | .lengthError length => decide (Config.maxBody < length.toNat)
  | .powerOnReset _ _ | .rstnLow | .rstnRelease _ | .refclkStop | .refclkReturn | .sampleInstant _
  | .levelChangeReport _ | .joinTrigger _ | .reminderTrigger _ | .occupancyChange _ | .widthTimerExpiry _
  | .gapTimerExpiry _ | .sourceEventPost | .grantEventPost | .channelSampleEvent _ _ _ | .holdTimerExpiry _
  | .settleTimerExpiry _ | .framingFault | .gapLimitExpiry | .frameReceived _ | .goodFrameIndication _
  | .badKind | .duplicate | .status | .bind | .unbind | .sourceQuery | .maskOn | .maskOff | .service
  | .pendingList | .lineSet | .lineQuery | .channelSet | .assign | .channelQuery | .revoke | .noticeAck
  | .linkSet | .resync | .frameSent | .retransmitTimerExpiry | .hubClockIncrement | .characterReceived _
  | .startBit | .rxdReturnToMark | .supplyDip => true

end Sys2Proof
end

