-- ==== Sys2Proof/Tests/Slice0.lean ====
section
/-! SUPPORT. Small tests: the well-formedness check, words of the message catalogue, one step of many commands, and for each
obligation with hypotheses states and operands that meet them, clause by clause, at the ends of their ranges. -/

namespace Sys2Proof.Slice0

open Sys2Proof.Machine

set_option Elab.async false
set_option synthInstance.maxHeartbeats 2000000
set_option synthInstance.maxSize 4000

/-! ### Small states -/

/-- The frame of a request, with tag 1. -/
def request (kind : Byte) (body : List Byte) : Frame := { kind := kind, tag := 1, body := body }

/-- A state in which the dispatcher takes this request next. -/
def asked (kind : Byte) (body : List Byte) (s : State) : State :=
  s.withMlk { s.mlk with buffer := [{ frame := request kind body, indication := false }] }

/-- A binding record: SHARED, with a line target L0, LEVEL_HIGH, IDLE. -/
def sharedRecord : BindingRecord := { BindingRecord.unbound with cls := .shared, status := .idle }

/-- A state with one binding, in its pending set when it is PENDING. -/
def bound (source : Source) (x : BindingRecord) (s : State) : State :=
  s.withRtu { s.rtu with
    records := s.rtu.records.write source x
    sets := if x.status = .pending then s.rtu.sets.write 0 (s.rtu.sets.read 0 ++ [source]) else s.rtu.sets }

/-- A first acceptance of S0 into HIGH. -/
def highReport : LevelReport := { source := 0, new := .high, previous := .unknown, time := 0 }

/-- A state with one report to be taken. -/
def reported (s : State) : State := s.withRtu { s.rtu with reports := [highReport] }

/-- A state with another conditioner record of SRC0. -/
def conditioned (x : Conditioner) (s : State) : State :=
  s.withScu { s.scu with conditioners := s.scu.conditioners.write 0 x }

/-- A state with another record of L0, and a trigger of either kind and an occupancy change of it to be taken. -/
def lined (x : LineRecord) (s : State) : State :=
  s.withAld { lines := s.ald.lines.write 0 x, triggers := [⟨.join, 0⟩, ⟨.reminder, 0⟩], occupancy := [0] }

/-- An enabled PULSE-mode line in a phase. -/
def pulseLine (phase : LinePhase) : LineRecord :=
  { settings := { LineSettings.default with enable := true, mode := .pulse }, phase := phase, owed := false,
    output := .released }

/-- A state with another queue and other posts. -/
def queued (queue : List Entry) (posts : List Post) (s : State) : State :=
  s.withNq { s.nq with queue := queue, posts := posts }

/-- A GRANT_EVENT of C0 and Q0. -/
def grantEvent : GrantEvent :=
  { channel := 0, requester := 0, what := .granted, reason := .none, units := 0, duration := 0, time := 0 }

/-- A SOURCE_EVENT post of S0. -/
def sourcePost : SourcePost := { source := 0, level := .high, time := 0 }

/-- An UNSENT entry. -/
def unsent (body : NoticeBody) : Entry := { body := body, delivery := .unsent }

/-- A full queue. -/
def fullQueue : List Entry := List.replicate 32 (unsent (.grantEvent grantEvent))

/-- A state with another record of C0. -/
def channelled (x : ChannelRecord) (s : State) : State :=
  s.withGar { s.gar with channels := s.gar.channels.write 0 x }

/-- A state in which Q`q` is assigned to C0, in this state, with these levels. -/
def assigned (q : Requester) (state : RequesterState) (req : Level) (done : Option Level) (s : State) : State :=
  s.withGar { s.gar with
    requesters := s.gar.requesters.write q
      { assigned := some 0, priority := 0, state := state, reqLevel := req, doneLevel := done } }

/-- The settings of an open channel. -/
def openSettings : ChannelSettings := { ChannelSettings.default with isOpen := true }

/-- C0 in a phase with a queue. -/
def channelIn (settings : ChannelSettings) (phase : ChannelPhase) (queue : List Requester) : ChannelRecord :=
  { ChannelRecord.initial settings with phase := phase, queue := queue }

/-- Q0 holds C0, with the hold timer about to be taken. -/
def heldState : State :=
  assigned 0 (.granted 0 0) .high (some .low)
    (channelled { channelIn { openSettings with holdLimit := 1 } (.held 0) [] with holdTimer := .running 0 } State.reset)

/-- Q0 is BLOCKED and settles C0, with the settle timer about to be taken. -/
def settlingState : State :=
  assigned 0 (.blocked .timeout) .high (some .low)
    (channelled { channelIn openSettings (.settling (some 0)) [] with settleTimer := .running 0 } State.reset)

/-- Q0 and Q1 wait for C0, which is HELD by Q2, under PRIORITY with aging. -/
def waitingState : State :=
  assigned 0 (.waiting 0 false) .high none (assigned 1 (.waiting 0 false) .high none (assigned 2 (.granted 0 0) .high none
    (channelled (channelIn { openSettings with policy := .priority, ageLimit := 1 } (.held 2) [0, 1]) State.reset)))

/-- The receiver in the middle of a character in a phase. -/
def receiving (r : Receiving) (s : State) : State :=
  s.withMlk { s.mlk with
    receiver := { receiving := r, gapTimer := decide (r ≠ .hunt), inCharacter := true, awaitMark := false } }

/-- A state with another transmitter, reply queue and sender. -/
def sending (tx : Transmitter) (replies : List Reply) (sender : Sender) (s : State) : State :=
  s.withMlk { s.mlk with tx := tx, replies := replies, sender := sender }

/-- A reply in the reply queue. -/
def someReply (rateSwitch : Option RateCode) : Reply := { frame := request 0x90 [0], rateSwitch := rateSwitch }

/-- A STALLED link with its round list empty. -/
def stalledSender : Sender := { Sender.initial with link := .stalled, nextNumber := 2, retryCount := 5 }

/-- The frame and the state after one step of a command. -/
def after (c : Instr) (s : State) : State :=
  match step (s.withPending [c]) with
  | .next t => t
  | .fault _ | .refused _ => s

/-! ### Well-formedness and words of the catalogue -/

theorem test_lengthError_41_wellFormed : (Instr.lengthError 41).wellFormed = true := by decide
theorem test_lengthError_40_illFormed : (Instr.lengthError 40).wellFormed = false := by decide
theorem test_no_word_decodes : decodeTableWord 8 0x11 = none := rfl
theorem test_check_value_of_digits :
    crc16 [0x31, 0x32, 0x33, 0x34, 0x35, 0x36, 0x37, 0x38, 0x39] = 0x29B1 := by decide +kernel
theorem test_resync_frame : (Frame.mk 0x1F 0 []).bytes = [0xC3, 0x1F, 0x00, 0x00, 0xA3, 0xCE] := by decide +kernel
theorem test_reset_is_powerOn_started : (State.powerOn .running (Tbl.fill 12 .low)).startNext = State.reset := by
  decide +kernel

/-! ### One step -/

theorem test_empty_queue_idles : step State.reset = .next State.reset := rfl
theorem test_increment : (after .hubClockIncrement State.reset).tbu.hubClock = 1 := by decide +kernel
theorem test_timer_after_increment : (after .hubClockIncrement State.reset).mlk.sender.timer = .running 200 := by
  decide +kernel
theorem test_rstnLow_discards_frame : (after .rstnLow State.reset).txFrame = none := by decide +kernel
theorem test_rstnRelease_restarts :
    (after (.rstnRelease (Tbl.fill 12 .high)) (after .rstnLow State.reset)).txFrame =
      some { kind := 0x40, tag := 1, body := [1, 0xE3, 1, 0, 0, 0, 0] } := by decide +kernel
theorem test_first_sample_accepted :
    ((after (.sampleInstant (Tbl.fill 24 .high)) State.reset).scu.conditioners.read 5).accepted = .known .high := by
  decide +kernel
theorem test_event_joins :
    (after (.levelChangeReport 0) (reported (bound 0 sharedRecord State.reset))).rtu.sets.read 0 = [0] := by
  decide +kernel
theorem test_pulse_starts :
    ((after (.joinTrigger 0) (lined (pulseLine .quiet) State.reset)).ald.lines.read 0).phase = .pulse 8 := by
  decide +kernel
theorem test_post_appended :
    (after .sourceEventPost (queued [] [.source sourcePost] State.reset)).nq.queue =
      [unsent (.sourceEvent 0 1 .high 0)] := by decide +kernel
theorem test_hold_timeout_blocks :
    ((after (.holdTimerExpiry 0) heldState).gar.requester 0).state = .blocked .timeout := by decide +kernel
theorem test_settle_expiry_frees :
    ((after (.settleTimerExpiry 0) settlingState).gar.channel 0).phase = .idle := by decide +kernel
theorem test_arrival_is_granted :
    ((after (.channelSampleEvent 0 (Tbl.fill 12 .high) (Tbl.fill 12 .low))
      (assigned 3 .idle .low none (channelled (channelIn openSettings .idle []) State.reset))).gar.channel 0).phase =
      .held 3 := by decide +kernel
theorem test_bind_answers_idle :
    (after .bind (asked 0x11 [0, 0, 1, 0, 0, 0, 0] State.reset)).mlk.replies =
      [{ frame := { kind := 0x91, tag := 1, body := [0, 1] }, rateSwitch := none }] := by decide +kernel
theorem test_bind_wrong_length :
    (after .bind (asked 0x11 [0, 0, 1] State.reset)).mlk.replies =
      [{ frame := { kind := 0x91, tag := 1, body := [2] }, rateSwitch := none }] := by decide +kernel
theorem test_noticeAck_empties_queue :
    (after .noticeAck (asked 0x1D [1, 1] State.reset)).nq.queue = [] := by decide +kernel
theorem test_noticeAck_unknown_number :
    ((after .noticeAck (asked 0x1D [1, 9] State.reset)).mlk.replies.map fun r => r.frame.body) = [[0, 1, 9, 1]] := by
  decide +kernel
theorem test_resync_reverts :
    (after .resync (asked 0x1F [] State.reset)).nq.queue = [unsent (.start .powerOn 0xE3 1 0)] := by decide +kernel
theorem test_linkSet_gives_rateSwitch :
    ((after .linkSet (asked 0x1E [4, 4, 20, 5] State.reset)).mlk.replies.map Reply.rateSwitch) = [some .r921600] := by
  decide +kernel

/-! ### Hypotheses met -/

theorem test_hypotheses_StepTakesFrontCommand : State.reset.pending = [] := by decide +kernel

theorem test_hypotheses_CountsSaturateAndTimersExpire : (0 : Nat) ≤ 0 ∧ (65535 : Nat) ≤ 65535 := by decide

theorem test_hypotheses_HubClockCountsIncrements :
    State.reset.live = true ∧ exec .frameSent State.reset = .next (after .frameSent State.reset) := by
  refine ⟨by decide +kernel, rfl⟩

theorem test_hypotheses_PowerOnResetAndSupplyDip : State.reset.tbu.refclk = true := rfl

theorem test_hypotheses_RstnLowKeepsConfigurationOnly : State.reset.live = true := by decide +kernel

theorem test_hypotheses_RstnReleaseStartsNumbering :
    (State.reset.enterReset.tbu.mode = .resetLow ∧ State.reset.enterReset.tbu.refclk = true) ∧
    (State.reset.live = true ∧ 1 ≤ State.reset.mlk.settings.window.toNat) := by decide +kernel

theorem test_hypotheses_ReferenceClockStopHoldsState :
    ((after .refclkStop State.reset).tbu.refclk = false ∧ Instr.frameSent ≠ .refclkReturn ∧
      Instr.frameSent ≠ .supplyDip) ∧
    (State.reset.enterReset.tbu.mode ≠ .running ∧ Instr.frameSent ≠ .refclkStop) ∧
    (∀ rstn req, Instr.frameSent ≠ .powerOnReset rstn req) ∧ (∀ req, Instr.frameSent ≠ .rstnRelease req) := by
  refine ⟨by decide +kernel, by decide +kernel, by simp, by simp⟩

theorem test_hypotheses_OutputPinsFollowState :
    (State.reset.ald.lines.read 0).output = .off ∧
    (let x := pulseLine .quiet
     x.settings.drive = .pushPull ∧ x.settings.polarity = .activeLow ∧ x.output = .released) ∧
    (let x : LineRecord := { pulseLine .quiet with output := .asserted }
     x.settings.drive = .pushPull ∧ x.settings.polarity = .activeLow ∧ x.output = .asserted) ∧
    (let x : LineRecord := { settings := { LineSettings.default with polarity := .activeHigh }, phase := .quiet,
                             owed := false, output := .released }
     x.settings.drive = .pushPull ∧ x.settings.polarity = .activeHigh ∧ x.output = .released) ∧
    (let x : LineRecord := { settings := { LineSettings.default with polarity := .activeHigh }, phase := .quiet,
                             owed := false, output := .asserted }
     x.settings.drive = .pushPull ∧ x.settings.polarity = .activeHigh ∧ x.output = .asserted) ∧
    (let x : LineRecord := { settings := { LineSettings.default with drive := .openDrain }, phase := .quiet,
                             owed := false, output := .released }
     x.settings.drive = .openDrain ∧ x.settings.polarity = .activeLow ∧ x.output = .released) ∧
    (let x : LineRecord := { settings := { LineSettings.default with drive := .openDrain }, phase := .quiet,
                             owed := false, output := .asserted }
     x.settings.drive = .openDrain ∧ x.settings.polarity = .activeLow ∧ x.output = .asserted) ∧
    heldState.gar.lawful ∧ (heldState.gar.channel 0).phase = .held 0 := by decide +kernel

/-- S0 with an accepted level, a filter length and a run length. -/
def filtered (accepted : Accepted) (filter : Byte) (last : Option Level) (run : Nat) : State :=
  conditioned { lastSample := last, accepted := accepted, runLength := run }
    (bound 0 { sharedRecord with filter := filter } State.reset)

/-- The hypotheses of the clauses over one external source at a sample level. -/
def sampleCase (s : State) (level : Level) : Bool × Accepted × Nat × Nat :=
  let old := s.scu.conditioners.read 0
  (s.live, old.accepted,
    (if old.accepted = .unknown then (if old.lastSample = some level then old.runLength + 1 else 1)
     else old.runLength + 1),
    (s.rtu.record (External.toSource 0)).filter.toNat + 1)

theorem test_hypotheses_SamplesAreFilteredAndReported :
    sampleCase (filtered (.known .low) 0 (some .low) 0) .low = (true, .known .low, 1, 1) ∧
    sampleCase (filtered (.known .low) 1 (some .low) 0) .high = (true, .known .low, 1, 2) ∧
    sampleCase (filtered (.known .low) 255 (some .high) 254) .high = (true, .known .low, 255, 256) ∧
    sampleCase (filtered (.known .low) 255 (some .high) 255) .high = (true, .known .low, 256, 256) ∧
    sampleCase (filtered .unknown 1 none 0) .high = (true, .unknown, 1, 2) ∧
    sampleCase (filtered .unknown 0 none 0) .high = (true, .unknown, 1, 1) ∧
    sampleCase (filtered .unknown 255 (some .high) 255) .high = (true, .unknown, 256, 256) := by decide +kernel

theorem test_hypotheses_SenseDecidesEvents :
    (let s := reported State.reset
     s.live = true ∧ s.rtu.oldestReport [] highReport [] ∧ (s.rtu.record 0).status = .unbound) ∧
    (let s := reported (bound 0 { sharedRecord with sense := .rise } State.reset)
     s.live = true ∧ s.rtu.oldestReport [] highReport [] ∧
       (s.rtu.record 0).sense.isEvent highReport.previous highReport.new = false) := by decide +kernel

theorem test_hypotheses_InternalSourcesFollowConditions : (3 : Internal).val = (3 : Channel).val := rfl

theorem test_hypotheses_EventsThatJoinNothing :
    (let s := reported (bound 0 { sharedRecord with mask := true } State.reset)
     s.live = true ∧ s.rtu.oldestReport [] highReport [] ∧ (s.rtu.record 0).status ≠ .unbound ∧
       (s.rtu.record 0).sense.isEvent .unknown .high = true ∧ (s.rtu.record 0).mask = true) ∧
    (let s := reported (bound 0 { sharedRecord with status := .pending } State.reset)
     s.live = true ∧ s.rtu.oldestReport [] highReport [] ∧ (s.rtu.record 0).status = .pending ∧
       (s.rtu.record 0).target = .line 0 ∧ (s.rtu.record 0).sense.isEvent .unknown .high = true ∧
       (s.rtu.record 0).mask = false) ∧
    (let s := reported (bound 0 { sharedRecord with target := .reportOnly, report := true } State.reset)
     s.live = true ∧ s.rtu.oldestReport [] highReport [] ∧ (s.rtu.record 0).status = .idle ∧
       (s.rtu.record 0).target = .reportOnly ∧ s.rtu.lawful ∧
       (s.rtu.record 0).sense.isEvent .unknown .high = true ∧ (s.rtu.record 0).mask = false) := by decide +kernel

theorem test_hypotheses_EventOfIdleSourceJoins :
    let s := reported (bound 0 sharedRecord State.reset)
    s.live = true ∧ s.rtu.lawful ∧ s.rtu.oldestReport [] highReport [] ∧ (s.rtu.record 0).status = .idle ∧
      (s.rtu.record 0).target = .line 0 ∧ (s.rtu.record 0).sense.isEvent .unknown .high = true ∧
      (s.rtu.record 0).mask = false := by decide +kernel

theorem test_hypotheses_PulseLineAnswersTriggers :
    (let s := lined (pulseLine .quiet) State.reset
     s.live = true ∧ ⟨.join, 0⟩ ∈ s.ald.triggers ∧ (s.ald.lines.read 0).settings.enable = true ∧
       (s.ald.lines.read 0).settings.mode = .pulse ∧ (s.ald.lines.read 0).phase = .quiet) ∧
    (let s := lined (pulseLine (.gap 8)) State.reset
     s.live = true ∧ ⟨.reminder, 0⟩ ∈ s.ald.triggers ∧ (s.ald.lines.read 0).settings.enable = true ∧
       (s.ald.lines.read 0).settings.mode = .pulse ∧ (s.ald.lines.read 0).phase ≠ .quiet) ∧
    (let s := lined (State.reset.ald.lines.read 0) State.reset
     s.live = true ∧ ⟨.join, 0⟩ ∈ s.ald.triggers ∧ (s.ald.lines.read 0).settings.enable = false ∧
       (s.ald.lines.read 0).settings.mode = .level) ∧
    (let s := lined (pulseLine (.pulse 8)) State.reset
     s.live = true ∧ (s.ald.lines.read 0).phase = .pulse 8) ∧
    (let s := lined (pulseLine (.gap 8)) State.reset
     s.live = true ∧ (s.ald.lines.read 0).phase = .gap 8) := by decide +kernel

theorem test_hypotheses_OccupancyDrivesLevelLine :
    let s := lined (State.reset.ald.lines.read 0) State.reset
    s.live = true ∧ 0 ∈ s.ald.occupancy := by decide +kernel

theorem test_hypotheses_LineSetReplacesSettings :
    (let x : LineSettings := { LineSettings.default with width := 1, gap := 255 }
     let body : List Byte := [byteOf 7, flagCode x.enable, x.mode.code, x.polarity.code, x.drive.code, x.width, x.gap]
     (asked 0x17 body State.reset).takes .lineSet (request 0x17 body) ∧ x.width ≠ 0 ∧ x.gap ≠ 0 ∧
       ¬ (x.drive = .openDrain ∧ x.polarity = .activeHigh)) := by decide +kernel

theorem test_hypotheses_PostsCoalesceAppendOrAreLost :
    (let s := queued [unsent (.sourceEvent 0 1 .low 0)] [.source sourcePost] State.reset
     s.live = true ∧ s.nq.posts = .source sourcePost :: [] ∧ s.nq.queue = [] ++ unsent (.sourceEvent 0 1 .low 0) :: []) ∧
    (let s := queued (fullQueue.drop 1) [.source sourcePost] State.reset
     s.live = true ∧ (∀ e ∈ s.nq.queue, e.isUnsentOf 0 = false) ∧ s.nq.queue.length < 32) ∧
    (let s := queued fullQueue [.source sourcePost] State.reset
     s.live = true ∧ (∀ e ∈ s.nq.queue, e.isUnsentOf 0 = false) ∧ 32 ≤ s.nq.queue.length) ∧
    (let s := queued (fullQueue.drop 1) [.grant grantEvent] State.reset
     s.live = true ∧ s.nq.posts = .grant grantEvent :: [] ∧ s.nq.queue.length < 32) ∧
    (let s := queued fullQueue [.grant grantEvent] State.reset
     s.live = true ∧ s.nq.posts = .grant grantEvent :: [] ∧ 32 ≤ s.nq.queue.length) := by decide +kernel

theorem test_hypotheses_LossIsCountedAndCarried :
    (let n : Nq := { queue := [unsent (.loss 1 0)], lossCount := 0, firstLossTime := none, posts := [] }
     n.queue = [] ++ unsent (.loss 1 0) :: []) ∧
    (let n : Nq := { queue := fullQueue, lossCount := 0, firstLossTime := none, posts := [] }
     (∀ e ∈ n.queue, e.isUnsentLoss = false) ∧ n.lossCount = 0) ∧
    (let n : Nq := { queue := [unsent (.sourceEvent 0 1 .low 0)], lossCount := 1, firstLossTime := some 0, posts := [] }
     n.queue = [] ++ unsent (.sourceEvent 0 1 .low 0) :: [] ∧
       Entry.isUnsentOf 0 (unsent (.sourceEvent 0 1 .low 0)) = true ∧ n.lossCount ≠ 0 ∧
       ∀ x ∈ ([] ++ [] : List Entry), x.isUnsentLoss = false) ∧
    (let n : Nq := { queue := [unsent (.sourceEvent 0 1 .low 0), unsent (.loss 65535 0)], lossCount := 1,
                     firstLossTime := some 0, posts := [] }
     n.queue = [] ++ unsent (.sourceEvent 0 1 .low 0) :: [unsent (.loss 65535 0)] ∧
       Entry.isUnsentOf 0 (unsent (.sourceEvent 0 1 .low 0)) = true ∧ n.lossCount ≠ 0 ∧
       [] ++ [unsent (.loss 65535 0)] = [] ++ unsent (.loss 65535 0) :: []) := by decide +kernel

theorem test_hypotheses_JoinWaitQueueByPolicy :
    (State.reset.gar.channel 0).settings.policy = .arrival ∧
    (waitingState.gar.channel 0).settings.policy = .priority ∧ waitingState.gar.queueLawful 0 ∧
    (waitingState.gar.channel 0).queue = [0, 1] := by decide +kernel

/-- Q0 and Q1 wait for C0, open and IDLE. -/
def grantable (settings : ChannelSettings) : Gar := (channelled (channelIn settings .idle [0, 1]) waitingState).gar

theorem test_hypotheses_GrantGoesToHeadAndAgesTheRest :
    ((State.reset.gar.channel 0).settings.isOpen = false ∧ (State.reset.gar.channel 0).queue = []) ∧
    (heldState.gar.channel 0).phase ≠ .idle ∧
    (let g := grantable openSettings
     (g.channel 0).settings.isOpen = true ∧ (g.channel 0).phase = .idle ∧ (g.channel 0).queue = 0 :: [1] ∧
       (g.channel 0).settings.policy = .arrival) ∧
    (let g := grantable { openSettings with policy := .priority }
     (g.channel 0).settings.isOpen = true ∧ (g.channel 0).phase = .idle ∧ (g.channel 0).queue = 0 :: [1] ∧
       (g.channel 0).settings.ageLimit = 0) ∧
    (let g := grantable { openSettings with policy := .priority, ageLimit := 1 }
     (g.channel 0).settings.isOpen = true ∧ (g.channel 0).phase = .idle ∧ (g.channel 0).queue = 0 :: [1] ∧
       0 ∉ ([1] : List Requester) ∧ (g.channel 0).settings.policy = .priority ∧
       0 < (g.channel 0).settings.ageLimit.toNat ∧ (2 : Requester) ≠ 0 ∧ 2 ∉ ([1] : List Requester) ∧
       (g.requester 1).state = .waiting 0 false) := by decide +kernel

theorem test_hypotheses_SampleEventTakesRequestersInOrder : State.reset.live = true := by decide +kernel

theorem test_hypotheses_RequesterSamplesByState_req :
    ((State.reset.gar.requester 0).reqLevel = .low) ∧
    (let g := (assigned 0 .idle .low none State.reset).gar
     (g.requester 0).reqLevel = .low ∧ (g.requester 0).state = .idle) ∧
    ((waitingState.gar.requester 0).reqLevel = .high ∧ (waitingState.gar.requester 0).state = .waiting 0 false) ∧
    ((heldState.gar.requester 0).reqLevel = .high ∧ (heldState.gar.requester 0).state = .granted 0 0) ∧
    ((settlingState.gar.requester 0).reqLevel = .high ∧ (settlingState.gar.requester 0).state = .blocked .timeout) := by
  decide +kernel

theorem test_hypotheses_RequesterSamplesByState_done :
    (¬ ((State.reset.gar.requester 0).doneLevel = some .low ∧ Level.high = .high)) ∧
    ((heldState.gar.requester 0).doneLevel = some .low ∧ (heldState.gar.requester 0).state = .granted 0 0 ∧
      (heldState.gar.channel 0).settings.quota = 0) ∧
    (let g := (channelled (channelIn { openSettings with quota := 2 } (.held 0) []) heldState).gar
     (satInc (0 : Byte)).toNat < (g.channel 0).settings.quota.toNat) ∧
    (let g := (channelled (channelIn { openSettings with quota := 1 } (.held 0) []) heldState).gar
     (g.requester 0).doneLevel = some .low ∧ (g.requester 0).state = .granted 0 0 ∧ (g.requester 0).reqLevel = .high ∧
       (g.channel 0).settings.quota ≠ 0 ∧ (g.channel 0).settings.quota.toNat ≤ (satInc (0 : Byte)).toNat) ∧
    ((settlingState.gar.requester 0).doneLevel = some .low ∧
      (settlingState.gar.requester 0).state = .blocked .timeout ∧ BlockReason.timeout ≠ .reset) ∧
    (let g := (assigned 0 .idle .low (some .low) State.reset).gar
     (g.requester 0).doneLevel = some .low ∧ (g.requester 0).state = .idle) ∧
    (let g := (assigned 0 (.waiting 0 false) .high (some .low) State.reset).gar
     (g.requester 0).doneLevel = some .low ∧ (g.requester 0).state.isWaiting = true) ∧
    (let g := (assigned 0 (.blocked .reset) .high (some .low) State.reset).gar
     (g.requester 0).doneLevel = some .low ∧ (g.requester 0).state = .blocked .reset) := by decide +kernel

theorem test_hypotheses_HoldAndSettleTimersExpire :
    (heldState.live = true ∧ (heldState.gar.channel 0).holdTimer = .running 0 ∧
      (heldState.gar.channel 0).phase = .held 0 ∧ (heldState.gar.requester 0).state = .granted 0 0) ∧
    (settlingState.live = true ∧ (settlingState.gar.channel 0).settleTimer = .running 0 ∧
      (settlingState.gar.channel 0).phase = .settling (some 0)) := by decide +kernel

theorem test_hypotheses_ReceiverTimersAndFaults :
    (State.reset.live = true ∧ State.reset.mlk.receiver.inCharacter = false ∧
      State.reset.mlk.receiver.awaitMark = false) ∧
    ((after (.characterReceived 0xC3) (receiving .hunt State.reset)).mlk.receiver.gapTimer = true ∧
      (after (.characterReceived 0xC3) (receiving .hunt State.reset)).mlk.receiver.receiving ≠ .hunt) ∧
    ((receiving .kind State.reset).mlk.receiver.inCharacter = true ∧
      (receiving .kind State.reset).mlk.receiver.receiving ≠ .hunt) ∧
    ((receiving .hunt State.reset).mlk.receiver.inCharacter = true ∧
      (receiving .hunt State.reset).mlk.receiver.receiving = .hunt) := by decide +kernel

/-- The receiver takes a character in this phase, and the frame that a check value `crc` ends. -/
def takesIn (r : Receiving) : Bool :=
  let s := receiving r State.reset
  s.live && s.mlk.receiver.inCharacter && decide (s.mlk.receiver.receiving = r)

theorem test_hypotheses_CharactersMakeFrames :
    takesIn .hunt = true ∧ (0 : Byte) ≠ 0xC3 ∧ takesIn .kind = true ∧ takesIn (.tag 0x1F) = true ∧
    (takesIn (.length 0x1F 0) = true ∧ 1 ≤ (1 : Byte).toNat ∧ (40 : Byte).toNat ≤ 40 ∧ 40 < (41 : Byte).toNat) ∧
    (takesIn (.body 0x10 0 2 []) = true ∧ ([] : List Byte).length + 1 < (2 : Byte).toNat) ∧
    (takesIn (.body 0x10 0 1 []) = true ∧ ([] : List Byte).length + 1 = (1 : Byte).toNat) ∧
    takesIn (.checkHigh 0x1F 0 0 []) = true ∧
    (takesIn (.checkLow 0x1F 0 0 [] 0xA3) = true ∧ crc16 [0x1F, 0, 0] = (0xA3 : Byte) ++ (0xCE : Byte) ∧
      crc16 [0x1F, 0, 0] ≠ (0xA3 : Byte) ++ (0xCF : Byte)) ∧
    (receiving (.checkLow 0x1F 0 0 [] 0xA3) State.reset).mlk.buffer.length < 2 ∧
    (let b : Buffered := { frame := request 0x10 [0], indication := false }
     let s := receiving (.checkLow 0x1F 0 0 [] 0xA3) (State.reset.withMlk { State.reset.mlk with buffer := [b, b] })
     s.live = true ∧ 2 ≤ s.mlk.buffer.length) := by decide +kernel

theorem test_hypotheses_FrameBytesAreReceivedAsFrame :
    (request 0x10 (List.replicate 40 0)).body.length ≤ 40 ∧ State.reset.live = true ∧
    State.reset.mlk.receiver.receiving = .hunt ∧ State.reset.mlk.receiver.inCharacter = false ∧
    State.reset.mlk.receiver.awaitMark = false ∧ State.reset.mlk.buffer.length < 2 := by decide +kernel

/-- A sender with a round of notice 1 to send. -/
def roundSender : Sender := { State.reset.mlk.sender with roundList := [1] }

theorem test_hypotheses_TransmitterStartsReplyThenResend :
    State.reset.mlk.tx ≠ .idle ∧
    (let s := sending .idle [someReply none] State.reset.mlk.sender State.reset
     s.mlk.tx = .idle ∧ s.mlk.replies ≠ []) ∧
    (let s := sending .idle [] State.reset.mlk.sender State.reset
     s.mlk.tx = .idle ∧ s.mlk.replies = [] ∧ s.noticeClaim = false) ∧
    (let s := sending .idle [] roundSender State.reset
     s.mlk.tx = .idle ∧ s.mlk.replies = [] ∧ s.mlk.sender.link = .running ∧ s.mlk.sender.roundList = 1 :: [] ∧
       s.nq.queue = [] ++ { body := .start .powerOn 0xE3 1 0, delivery := .inFlight 1 } :: []) := by decide +kernel

theorem test_hypotheses_FirstSendingNumbersEntry :
    let s := sending .idle [] State.reset.mlk.sender
      (State.reset.withNq (State.reset.nq.append (.grantEvent grantEvent)))
    s.noticesLawful ∧ s.mlk.tx = .idle ∧ s.mlk.replies = [] ∧ s.mlk.sender.link = .running ∧
      s.mlk.sender.roundList = [] ∧ s.nq.inFlight.length < s.mlk.settings.window.toNat ∧
      s.nq.queue = [{ body := .start .powerOn 0xE3 1 0, delivery := .inFlight 1 }] ++
        { body := .grantEvent grantEvent, delivery := .unsent } :: [] := by decide +kernel

theorem test_hypotheses_FrameSentEndsFrame :
    (State.reset.live = true ∧
      State.reset.mlk.tx = .notice { kind := 0x40, tag := 1, body := [0, 0xE3, 1, 0, 0, 0, 0] }) ∧
    (let s := sending .reply [someReply none] State.reset.mlk.sender State.reset
     s.live = true ∧ s.mlk.tx = .reply ∧ s.mlk.replies = someReply none :: [] ∧ (someReply none).rateSwitch = none) ∧
    (let s := sending .reply [someReply (some .r57600)] State.reset.mlk.sender State.reset
     s.live = true ∧ s.mlk.tx = .reply ∧ (someReply (some .r57600)).rateSwitch = some .r57600) := by decide +kernel

/-- A good request whose indication has not been taken, on a link with this sender. -/
def indicated (sender : Sender) : State :=
  sending .idle [] sender
    (State.reset.withMlk { State.reset.mlk with buffer := [{ frame := request 0x10 [0], indication := true }] })

theorem test_hypotheses_GoodFrameIndicationEndsStall :
    ((indicated State.reset.mlk.sender).live = true ∧ (indicated State.reset.mlk.sender).mlk.sender.link = .running) ∧
    ((indicated stalledSender).mlk.buffer = [] ++ { frame := request 0x10 [0], indication := true } :: [] ∧
      (indicated stalledSender).mlk.sender.link = .stalled) ∧
    ((indicated stalledSender).noticesLawful ∧ requestKind .noticeAck ≠ none) := by
  decide +kernel

/-- The retransmit timer about to be taken, at a retry count. -/
def expiring (retries : Nat) : State :=
  sending .idle [] { State.reset.mlk.sender with timer := .running 0, retryCount := retries } State.reset

theorem test_hypotheses_RetransmitExpiryBeginsRoundOrStalls :
    ((expiring 4).live = true ∧ (expiring 4).mlk.sender.timer = .running 0 ∧
      (expiring 4).mlk.sender.retryCount < (expiring 4).mlk.settings.retryLimit.toNat) ∧
    ((expiring 5).mlk.settings.retryLimit.toNat ≤ (expiring 5).mlk.sender.retryCount) := by decide +kernel

/-- The link stalled with an ack of every IN_FLIGHT entry in the receive buffer, its good-frame indication taken before. -/
def stalledBeforeAck : State := after .retransmitTimerExpiry (asked 0x1D [1, 1] (expiring 5))

theorem test_stall_holds_buffered_ack : after .noticeAck stalledBeforeAck = stalledBeforeAck := by decide +kernel

theorem test_ack_after_stall :
    let s := after .noticeAck (after (.goodFrameIndication false) stalledBeforeAck)
    s.nq.queue = [] ∧ s.mlk.sender = { Sender.initial with nextNumber := 2 } ∧ s.mlk.counters.rounds = 1 ∧
      s.mlk.counters.stalls = 1 := by decide +kernel

/-- The saved reply has the tag of the request. -/
def answeredBefore (s : State) : State := s.withMlk { s.mlk with saved := some (request 0x90 [0]) }

theorem test_hypotheses_BadKindAndDuplicateAreAnswered :
    ((asked 0x0F [] State.reset).ready (request 0x0F []) ∧ (0x0F : Byte).toNat < 0x10 ∧ 0x1F < (0x20 : Byte).toNat) ∧
    ((answeredBefore (asked 0x1E [] State.reset)).ready (request 0x1E []) ∧ 0x10 ≤ (0x1E : Byte).toNat ∧
      (0x1E : Byte).toNat < 0x1F ∧
      (answeredBefore (asked 0x1E [] State.reset)).mlk.saved = some (request 0x90 [0]) ∧
      (request 0x90 [0]).tag = (request 0x1E []).tag) ∧
    (answeredBefore (asked 0x1F [] State.reset)).ready (request 0x1F []) := by decide +kernel

theorem test_hypotheses_EveryRequestIsAnswered :
    (requestKind .maskOn = some .mask ∧ (asked 0x14 [0, 1] State.reset).takes .mask (request 0x14 [0, 1]) ∧
      (asked 0x14 [0, 1] State.reset).nextMaskValue ≠ some false) ∧
    (requestKind .maskOff = some .mask ∧ (asked 0x14 [0, 0] State.reset).takes .mask (request 0x14 [0, 0]) ∧
      (asked 0x14 [0, 0] State.reset).nextMaskValue ≠ some true) ∧
    (requestKind .noticeAck = some .noticeAck ∧ bodyLengthFits .noticeAck [5, 1, 2, 3, 4, 5] = false ∧
      (asked 0x1D [5, 1, 2, 3, 4, 5] State.reset).takes .noticeAck (request 0x1D [5, 1, 2, 3, 4, 5])) := by
  decide +kernel

theorem test_hypotheses_StatusReportsAndClears :
    (asked 0x10 [flagCode true] State.reset).takes .status (request 0x10 [flagCode true]) := by decide +kernel

theorem test_hypotheses_LinkSetStoresSettings :
    let x : LinkSettings := { rate := .r921600, window := 1, interval := 255, retryLimit := 15 }
    (asked 0x1E [rateByte x.rate, x.window, x.interval, x.retryLimit] State.reset).takes .linkSet
      (request 0x1E [rateByte x.rate, x.window, x.interval, x.retryLimit]) ∧ x.lawful := by decide +kernel

theorem test_hypotheses_NoticeAckRemovesEntries :
    (asked 0x1D [4, 1, 1, 2, 3] State.reset).takes .noticeAck (request 0x1D [4, 1, 1, 2, 3]) ∧
    1 ≤ ([1, 1, 2, 3] : List Byte).length ∧ ([1, 1, 2, 3] : List Byte).length ≤ 4 ∧
    (request 0x1D [4, 1, 1, 2, 3]).body = BitVec.ofNat 8 ([1, 1, 2, 3] : List Byte).length :: [1, 1, 2, 3] := by
  decide +kernel

/-- A notice queue with no posts, at a loss count. -/
def lossy (queue : List Entry) (lossCount : Half) : Nq :=
  { queue := queue, lossCount := lossCount, firstLossTime := if lossCount = 0 then none else some 5, posts := [] }

/-- An entry that leaves by merge, and no LOSS entry. -/
def mergedQueue : List Entry := [unsent (.sourceEvent 0 200 .high 7), unsent (.grantEvent grantEvent),
  unsent (.sourceEvent 0 100 .low 9)]

theorem test_hypotheses_ResyncRestartsNumberingAndMerges :
    ((asked 0x1F [] State.reset).takes .resync (request 0x1F []) ∧ (request 0x1F []).body = []) ∧
    (let n := lossy [unsent (.grantEvent grantEvent)] 3
     n.queue.length ≤ (mergeAll n.queue).length) ∧
    (lossy mergedQueue 0).lossCount = 0 ∧
    (let n := lossy mergedQueue 3
     (mergeAll n.queue).length < n.queue.length ∧ n.lossCount ≠ 0 ∧ ∀ e ∈ mergeAll n.queue, e.isLoss = false) ∧
    (let n := lossy (unsent (.loss 1 3) :: mergedQueue) 65535
     (mergeAll n.queue).length < n.queue.length ∧ n.lossCount ≠ 0 ∧
       mergeAll n.queue = [] ++ unsent (.loss 1 3) ::
         [unsent (.sourceEvent 0 255 .high 7), unsent (.grantEvent grantEvent)]) := by decide +kernel

theorem test_resync_merges_in_place :
    (lossy [unsent (.sourceEvent 0 200 .high 7), unsent (.loss 1 3), unsent (.sourceEvent 0 100 .low 9),
      unsent (.loss 65535 4)] 0).resync.queue = [unsent (.sourceEvent 0 255 .high 7), unsent (.loss 65535 3)] := by
  decide +kernel

theorem test_resync_carries_losses :
    (lossy mergedQueue 3).resync = lossy [unsent (.sourceEvent 0 255 .high 7), unsent (.grantEvent grantEvent),
      unsent (.loss 3 5)] 0 := by decide +kernel

theorem test_hypotheses_QueriesReportState :
    (asked 0x13 [29] State.reset).takes .sourceQuery (request 0x13 [29]) ∧
    (asked 0x16 [7] State.reset).takes .pendingList (request 0x16 [7]) ∧
    (asked 0x18 [7] State.reset).takes .lineQuery (request 0x18 [7]) ∧
    (asked 0x1B [3] State.reset).takes .channelQuery (request 0x1B [3]) := by decide +kernel

/-- S1 bound EXCLUSIVE to L0. -/
def exclusiveState : State := bound 1 { sharedRecord with cls := .exclusive } State.reset

theorem test_hypotheses_RoutingRequestRefusals_bind :
    (let body : List Byte := [30, 0, 0, 0, 0, 0, 0]
     (asked 0x11 body State.reset).takes .bind (request 0x11 body) ∧ 29 < (30 : Byte).toNat) ∧
    (let body : List Byte := [0, 8, 1, 0, 0, 0, 0]
     (asked 0x11 body State.reset).takes .bind (request 0x11 body) ∧ (8 : Byte) = 8 ∧ (0 : Byte) = 0) ∧
    (let body : List Byte := [1, 0, 1, 0, 0, 0, 0]
     (asked 0x11 body exclusiveState).takes .bind (request 0x11 body) ∧ (exclusiveState.rtu.record 1).status ≠ .unbound) ∧
    (let body : List Byte := [0, 0, 1, 0, 0, 0, 0]
     (asked 0x11 body exclusiveState).takes .bind (request 0x11 body) ∧ (exclusiveState.rtu.record 0).status = .unbound ∧
       (exclusiveState.rtu.record 1).target = .line 0 ∧ (exclusiveState.rtu.record 1).cls = .exclusive) := by
  decide +kernel

theorem test_hypotheses_RoutingRequestRefusals_others :
    ((asked 0x12 [30] State.reset).takes .unbind (request 0x12 [30])) ∧
    ((asked 0x15 [30] State.reset).takes .service (request 0x15 [30])) ∧
    ((asked 0x14 [30, 1] State.reset).takes .mask (request 0x14 [30, 1]) ∧ (1 : Byte) ≠ 0) ∧
    ((asked 0x14 [30, 0] State.reset).takes .mask (request 0x14 [30, 0]) ∧ (0 : Byte) ≠ 1) ∧
    ((asked 0x14 [0, 2] State.reset).takes .mask (request 0x14 [0, 2]) ∧ 1 < (2 : Byte).toNat) ∧
    ((asked 0x12 [29] State.reset).takes .unbind (request 0x12 [29]) ∧
      (State.reset.rtu.record 29).status = .unbound) ∧
    ((asked 0x15 [29] State.reset).takes .service (request 0x15 [29])) ∧
    ((asked 0x15 [1] exclusiveState).takes .service (request 0x15 [1]) ∧ (exclusiveState.rtu.record 1).status = .idle) ∧
    ((asked 0x14 [29, 1] State.reset).takes .mask (request 0x14 [29, 1])) ∧
    ((asked 0x14 [29, 0] State.reset).takes .mask (request 0x14 [29, 0])) := by decide +kernel

/-- SRC0 accepted HIGH. -/
def highState : State := conditioned { lastSample := some .high, accepted := .known .high, runLength := 0 } State.reset

theorem test_hypotheses_BindStoresRecordWithLevelEvent :
    (let body : List Byte := [BitVec.ofNat 8 0, 0, 1, BitVec.ofNat 8 3, 1, 255, flagCode false]
     (asked 0x11 body highState).takes .bind (request 0x11 body) ∧ highState.rtu.lawful ∧
       (highState.rtu.record 0).status = .unbound ∧
       (∀ m, (highState.rtu.record m).boundTo 0 = true → SourceClass.shared = .shared ∧ (highState.rtu.record m).cls = .shared) ∧
       highState.scu.level 0 = .known .high ∧ Sense.levelLow.activeLevel ≠ some .high) ∧
    (let body : List Byte := [BitVec.ofNat 8 0, 8, 1, 0, 0, 0, flagCode true]
     (asked 0x11 body highState).takes .bind (request 0x11 body) ∧ Sense.levelHigh.activeLevel = some .high) ∧
    (let body : List Byte := [BitVec.ofNat 8 0, 7, 0, 0, 0, 0, flagCode true]
     (asked 0x11 body highState).takes .bind (request 0x11 body) ∧
       ∀ m, (highState.rtu.record m).boundTo 7 = false) := by decide +kernel

/-- S0 PENDING on L0. -/
def pendingState : State := bound 0 { sharedRecord with status := .pending } State.reset

theorem test_hypotheses_UnbindClearsRecord :
    (let s := queued State.reset.nq.queue [.grant grantEvent] exclusiveState
     (asked 0x12 [1] s).takes .unbind (request 0x12 [1]) ∧ (s.rtu.record 1).status ≠ .unbound ∧
       s.nq.posts = .grant grantEvent :: []) ∧
    ((asked 0x12 [1] exclusiveState).takes .unbind (request 0x12 [1]) ∧ exclusiveState.nq.posts = [] ∧
      (exclusiveState.rtu.record 1).status = .idle) ∧
    ((asked 0x12 [0] pendingState).takes .unbind (request 0x12 [0]) ∧ pendingState.nq.posts = [] ∧
      (pendingState.rtu.record 0).status = .pending ∧ (pendingState.rtu.record 0).target = .line 0 ∧
      0 ∈ pendingState.rtu.sets.read 0) := by decide +kernel

theorem test_unbind_takes_post_first :
    exec (match Post.grant grantEvent with | .source _ => .sourceEventPost | .grant _ => .grantEventPost)
      (asked 0x12 [1] (queued [] [.grant grantEvent] exclusiveState)) =
      .next (after .grantEventPost (asked 0x12 [1] (queued [] [.grant grantEvent] exclusiveState))) := rfl

theorem test_hypotheses_MaskHoldsAndReleasesEvents_on :
    (let s := bound 0 { sharedRecord with mask := true } State.reset
     (asked 0x14 [0, 1] s).takes .mask (request 0x14 [0, 1]) ∧ s.rtu.lawful ∧ (s.rtu.record 0).status ≠ .unbound ∧
       (s.rtu.record 0).mask = true) ∧
    (let s := bound 0 sharedRecord State.reset
     (asked 0x14 [0, 1] s).takes .mask (request 0x14 [0, 1]) ∧ s.rtu.lawful ∧ (s.rtu.record 0).mask = false ∧
       (s.rtu.record 0).status = .idle) ∧
    ((asked 0x14 [0, 1] pendingState).takes .mask (request 0x14 [0, 1]) ∧ pendingState.rtu.lawful ∧
      (pendingState.rtu.record 0).mask = false ∧ (pendingState.rtu.record 0).status = .pending ∧
      (pendingState.rtu.record 0).target = .line 0) := by decide +kernel

/-- The common hypotheses of MASK off of S0. -/
def unmasks (s : State) : Bool :=
  decide ((asked 0x14 [0, 0] s).takes .mask (request 0x14 [0, 0])) && decide s.rtu.lawful &&
    decide ((s.rtu.record 0).status ≠ .unbound)

/-- MASK off of S0 with SRC0 accepted HIGH and every report taken. -/
def unmasksHigh (x : BindingRecord) : Bool :=
  unmasks (bound 0 x highState) && decide ((bound 0 x highState).rtu.noReportOf 0) &&
    decide ((bound 0 x highState).scu.level 0 = .known .high)

theorem test_hypotheses_MaskHoldsAndReleasesEvents_off :
    unmasksHigh sharedRecord = true ∧
    unmasksHigh { sharedRecord with target := .reportOnly, report := true, mask := true, held := true } = true ∧
    (unmasksHigh { sharedRecord with mask := true, sense := .levelLow } = true ∧
      Sense.levelLow.activeLevel ≠ some .high) ∧
    unmasksHigh { sharedRecord with mask := true, held := true, sense := .rise } = true ∧
    (unmasksHigh { sharedRecord with mask := true } = true ∧ Sense.levelHigh.activeLevel = some .high) := by decide +kernel

theorem test_hypotheses_MaskHoldsAndReleasesEvents_unknown :
    let s := bound 0 { sharedRecord with mask := true } State.reset
    unmasks s = true ∧ s.eventsHaveLevels ∧ s.scu.level 0 = .unknown ∧ (s.rtu.record 0).mask = true := by decide +kernel

/-- S0 with a report of its first acceptance into HIGH waiting, and the request of this kind and body to be taken. -/
def waiting (kind : Byte) (body : List Byte) (x : BindingRecord) : State := asked kind body (reported (bound 0 x highState))

theorem test_hypotheses_MaskHoldsAndReleasesEvents_waiting :
    (let s := waiting 0x14 [0, 0] { sharedRecord with mask := true }
     unmasks s = true ∧ (s.rtu.record 0).mask = true ∧ (s.rtu.record 0).target ≠ .reportOnly ∧
       (s.rtu.record 0).held = false ∧ (s.rtu.record 0).sense = .levelHigh ∧ ¬ s.rtu.noReportOf 0 ∧
       (after (.levelChangeReport 0) s).rtu.noReportOf 0) ∧
    (let s := waiting 0x14 [0, 0] { sharedRecord with mask := true, held := true }
     unmasks s = true ∧ (s.rtu.record 0).held ≠ false ∧ s.scu.level 0 = .known .high ∧ ¬ s.rtu.noReportOf 0) := by
  decide +kernel

theorem test_maskOff_takes_report_first :
    let s := waiting 0x14 [0, 0] { sharedRecord with mask := true }
    s.takesReports 0 1 (after (.levelChangeReport 0) s) := ⟨_, rfl, rfl⟩

theorem test_maskOff_releases_waiting_event :
    ((after .maskOff (waiting 0x14 [0, 0] { sharedRecord with mask := true })).mlk.replies.map fun r => r.frame.body) =
      [[0, 2, 1]] := by decide +kernel

/-- The common hypotheses of SERVICE of S0 PENDING on L0. -/
def services (s : State) : Bool :=
  decide ((asked 0x15 [0] s).takes .service (request 0x15 [0])) && decide s.rtu.lawful &&
    decide ((s.rtu.record 0).status = .pending) && decide ((s.rtu.record 0).target = .line 0)

/-- SERVICE of S0 with SRC0 accepted HIGH and every report taken. -/
def servicesHigh (x : BindingRecord) : Bool :=
  services (bound 0 x highState) && decide ((bound 0 x highState).rtu.noReportOf 0) &&
    decide ((bound 0 x highState).scu.level 0 = .known .high)

theorem test_hypotheses_ServiceRejoinsOrGoesIdle :
    servicesHigh { sharedRecord with status := .pending, again := true, sense := .rise } = true ∧
    (servicesHigh { sharedRecord with status := .pending } = true ∧ Sense.levelHigh.activeLevel = some .high) ∧
    (servicesHigh { sharedRecord with status := .pending, sense := .rise } = true ∧
      Sense.rise.activeLevel ≠ some .high) := by decide +kernel

theorem test_hypotheses_ServiceRejoinsOrGoesIdle_waiting :
    (let s := waiting 0x15 [0] { sharedRecord with status := .pending, sense := .levelLow }
     services s = true ∧ (s.rtu.record 0).again = false ∧ (s.rtu.record 0).sense = .levelLow ∧ ¬ s.rtu.noReportOf 0 ∧
       (after (.levelChangeReport 0) s).rtu.noReportOf 0) ∧
    (let s := waiting 0x15 [0] { sharedRecord with status := .pending, again := true }
     services s = true ∧ (s.rtu.record 0).again = true ∧ ¬ s.rtu.noReportOf 0) ∧
    (let s := waiting 0x15 [0] { sharedRecord with status := .pending, sense := .rise }
     services s = true ∧ (s.rtu.record 0).again = false ∧ (s.rtu.record 0).sense = .rise ∧ ¬ s.rtu.noReportOf 0) := by
  decide +kernel

theorem test_service_takes_report_first :
    let s := waiting 0x15 [0] { sharedRecord with status := .pending }
    s.takesReports 0 1 (after (.levelChangeReport 0) s) := ⟨_, rfl, rfl⟩

theorem test_hypotheses_LineAndGrantRequestRefusals :
    (let body : List Byte := [7, 1, 1, 1, 1, 255, 255]
     (asked 0x17 body State.reset).takes .lineSet (request 0x17 body) ∧ (1 : Byte) = 1) ∧
    (let body : List Byte := [8, 0, 0, 0, 0, 1, 1]
     (asked 0x17 body State.reset).takes .lineSet (request 0x17 body) ∧ 7 < (8 : Byte).toNat) ∧
    (let body : List Byte := [3, 1, 0, 1, 0, 0, 1, 16, 1]
     (asked 0x19 body State.reset).takes .channelSet (request 0x19 body) ∧ 15 < (16 : Byte).toNat) ∧
    (let body : List Byte := [11, 4, 3]
     (asked 0x1A body State.reset).takes .assign (request 0x1A body) ∧ 3 < (4 : Byte).toNat ∧ (4 : Byte) ≠ 0xFF) ∧
    ((asked 0x1C [4] State.reset).takes .revoke (request 0x1C [4]) ∧ 3 < (4 : Byte).toNat) := by decide +kernel

theorem test_hypotheses_QueryAndLinkRequestRefusals :
    ((asked 0x13 [30] State.reset).takes .sourceQuery (request 0x13 [30])) ∧
    ((asked 0x16 [8] State.reset).takes .pendingList (request 0x16 [8])) ∧
    ((asked 0x18 [8] State.reset).takes .lineQuery (request 0x18 [8])) ∧
    ((asked 0x1B [4] State.reset).takes .channelQuery (request 0x1B [4])) ∧
    ((asked 0x10 [2] State.reset).takes .status (request 0x10 [2])) ∧
    ((asked 0x1E [5, 4, 255, 15] State.reset).takes .linkSet (request 0x1E [5, 4, 255, 15]) ∧
      4 < (5 : Byte).toNat) := by decide +kernel

theorem test_hypotheses_ChannelSetReplacesSettings :
    (let x : ChannelSettings := { openSettings with settleLimit := 1, ageLimit := 15 }
     let body := [BitVec.ofNat 8 0, flagCode x.isOpen, x.quota, x.policy.code] ++ be16 x.holdLimit ++
       [x.settleLimit, x.ageLimit, flagCode x.reportGrants]
     (asked 0x19 body heldState).takes .channelSet (request 0x19 body) ∧ x.settleLimit ≠ 0 ∧ x.ageLimit.toNat ≤ 15 ∧
       (heldState.gar.channel 0).phase ≠ .idle ∧ x.ageLimit ≠ (heldState.gar.channel 0).settings.ageLimit) ∧
    (let x : ChannelSettings := { openSettings with settleLimit := 1, ageLimit := 15 }
     let body := [BitVec.ofNat 8 3, flagCode x.isOpen, x.quota, x.policy.code] ++ be16 x.holdLimit ++
       [x.settleLimit, x.ageLimit, flagCode x.reportGrants]
     (asked 0x19 body State.reset).takes .channelSet (request 0x19 body) ∧
       (State.reset.gar.channel 3).phase = .idle ∧ (State.reset.gar.channel 3).queue = []) := by decide +kernel

theorem test_hypotheses_AssignPlacesRequester :
    ((asked 0x1A [0, 0, 0] heldState).takes .assign (request 0x1A [0, 0, 0]) ∧
      (heldState.gar.requester 0).state.isGranted = true) ∧
    ((asked 0x1A [0, 0xFF, 3] State.reset).takes .assign (request 0x1A [0, 0xFF, 3]) ∧ State.reset.gar.lawful ∧
      (State.reset.gar.requester 0).state = .detached) ∧
    ((asked 0x1A [11, 3, 0] State.reset).takes .assign (request 0x1A [11, 3, 0]) ∧
      (State.reset.gar.requester 11).state = .detached ∧ (State.reset.gar.requester 11).reqLevel = .low) ∧
    (let s := after (.powerOnReset .high (Tbl.fill 12 .high)) State.reset
     (asked 0x1A [11, 3, 0] s).takes .assign (request 0x1A [11, 3, 0]) ∧
       (s.gar.requester 11).state = .detached ∧ (s.gar.requester 11).reqLevel = .high) ∧
    ((asked 0x1A [0, 1, 0] settlingState).takes .assign (request 0x1A [0, 1, 0]) ∧ settlingState.gar.lawful ∧
      (settlingState.gar.requester 0).state = .blocked .timeout) := by decide +kernel

theorem test_hypotheses_RevokeTakesChannelBack :
    ((asked 0x1C [3] State.reset).takes .revoke (request 0x1C [3]) ∧ (State.reset.gar.channel 3).phase = .idle) ∧
    ((asked 0x1C [0] heldState).takes .revoke (request 0x1C [0]) ∧ (heldState.gar.channel 0).phase = .held 0 ∧
      (heldState.gar.requester 0).state = .granted 0 0) := by decide +kernel

/-- A step from reset that takes a command. -/
theorem test_hypotheses_step : step (State.reset.withPending [.rstnLow]) = .next (after .rstnLow State.reset) := rfl

theorem test_hypotheses_StepKeepsRoutingLaw : pendingState.rtu.lawful ∧ pendingState.rtu.exclusivityHolds := by
  decide +kernel

theorem test_hypotheses_StepKeepsRoutingLaw_levels :
    (bound 0 { sharedRecord with status := .pending } highState).eventsHaveLevels := by decide +kernel

theorem test_hypotheses_StepKeepsLineLaw : (State.reset.withPending [.rstnLow]).linesLawful := by decide +kernel

theorem test_hypotheses_StepKeepsNoticeLaw :
    (State.reset.withPending [.rstnLow]).noticesLawful ∧ stalledBeforeAck.noticesLawful := by decide +kernel

theorem test_hypotheses_StepKeepsGrantLaw : (heldState.withPending [.rstnLow]).grantsLawful := by decide +kernel

theorem test_hypotheses_StepKeepsInternalLevels : (State.reset.withPending [.rstnLow]).internalAgrees := by
  decide +kernel

theorem test_hypotheses_StepKeepsLinkLaw : (State.reset.withPending [.rstnLow]).mlk.lawful := by decide +kernel

end Sys2Proof.Slice0
end

section
/-! The source path: what a sample makes of a conditioner record, what a sample instant makes of the state, what a
changed filter length does, and which level-change reports are events (R4 to R9). -/

namespace Sys2Proof.Machine

/-! ### A sample taken into a conditioner record (R4 to R6) -/

theorem Conditioner.nextRun_of_agreeing {c : Conditioner} {sample : Level} (h : c.accepted = .known sample) :
    c.nextRun sample = 0 := by
  simp [Conditioner.nextRun, h]

theorem Conditioner.nextRun_of_differing {c : Conditioner} {level sample : Level} (h : c.accepted = .known level)
    (hne : sample ≠ level) : c.nextRun sample = c.runLength + 1 := by
  simp [Conditioner.nextRun, h, hne]

theorem Conditioner.nextRun_of_unknown {c : Conditioner} (h : c.accepted = .unknown) (sample : Level) :
    c.nextRun sample = if c.lastSample = some sample then c.runLength + 1 else 1 := by
  simp [Conditioner.nextRun, h]

theorem Conditioner.accepts_iff {c : Conditioner} {filter : Byte} {sample : Level} :
    c.accepts filter sample = true ↔ filter.toNat + 1 ≤ c.nextRun sample := decide_eq_true_iff

/-- A run that is still too short is counted, and the accepted level stays. -/
theorem Conditioner.take_of_short {c : Conditioner} {filter : Byte} {sample : Level}
    (h : c.nextRun sample < filter.toNat + 1) :
    c.take filter sample = { c with lastSample := some sample, runLength := c.nextRun sample } :=
  if_neg fun ha => Nat.not_le_of_lt h (Conditioner.accepts_iff.mp ha)

/-- A run of f+1 samples is accepted. -/
theorem Conditioner.take_of_complete {c : Conditioner} {filter : Byte} {sample : Level}
    (h : filter.toNat + 1 ≤ c.nextRun sample) :
    c.take filter sample = { lastSample := some sample, accepted := .known sample, runLength := 0 } :=
  if_pos (Conditioner.accepts_iff.mpr h)

/-- A sample at the accepted level ends the run, whatever the filter length. -/
theorem Conditioner.take_of_agreeing {c : Conditioner} {sample : Level} (h : c.accepted = .known sample)
    (filter : Byte) : c.take filter sample = { c with lastSample := some sample, runLength := 0 } := by
  have hrun := Conditioner.nextRun_of_agreeing h
  rw [Conditioner.take_of_short (by omega), hrun]

@[simp] theorem Conditioner.lastSample_take (c : Conditioner) (filter : Byte) (sample : Level) :
    (c.take filter sample).lastSample = some sample := by
  rcases Nat.lt_or_ge (c.nextRun sample) (filter.toNat + 1) with h | h
  · rw [Conditioner.take_of_short h]
  · rw [Conditioner.take_of_complete h]

/-- Only a sample that differs from the accepted level can complete a run. -/
theorem Conditioner.accepted_ne_of_accepts {c : Conditioner} {filter : Byte} {sample : Level}
    (h : c.accepts filter sample = true) : c.accepted ≠ .known sample := by
  intro hknown
  have hrun := Conditioner.nextRun_of_agreeing hknown
  have := Conditioner.accepts_iff.mp h
  omega

/-- The accepted level changes exactly when the sample is accepted. -/
theorem Conditioner.accepted_take_ne_iff {c : Conditioner} {filter : Byte} {sample : Level} :
    (c.take filter sample).accepted ≠ c.accepted ↔ c.accepts filter sample = true := by
  constructor
  · intro hne
    by_contra hno
    rw [Conditioner.accepts_iff, Nat.not_le] at hno
    exact hne (by rw [Conditioner.take_of_short hno])
  · intro ha
    rw [Conditioner.take_of_complete (Conditioner.accepts_iff.mp ha)]
    exact (Conditioner.accepted_ne_of_accepts ha).symm

/-! ### One sample instant (R4, R8) -/

theorem exec_sampleInstant_of_live {s : State} (h : s.live = true) (src : Tbl 24 Level) :
    exec (.sampleInstant src) s = .next (s.sample src) :=
  congrArg Host.Outcome.next (State.whenLive_of_live h _)

@[simp] theorem State.read_conditioners_sample (s : State) (src : Tbl 24 Level) (e : External) :
    (s.sample src).scu.conditioners.read e =
      (s.scu.conditioners.read e).take (s.rtu.record (External.toSource e)).filter (src.read e) :=
  Tbl.read_build ..

/-- The external sources whose sample is accepted are those whose accepted level the instant changes. -/
theorem State.mem_accepting {s : State} {src : Tbl 24 Level} {e : External} :
    e ∈ s.accepting src ↔
      ((s.sample src).scu.conditioners.read e).accepted ≠ (s.scu.conditioners.read e).accepted := by
  rw [State.read_conditioners_sample, Conditioner.accepted_take_ne_iff]
  simp [State.accepting, State.filterInUse]

theorem External.toSource_injective : Function.Injective External.toSource :=
  fun _ _ h => Fin.ext (Fin.mk.inj h)

/-- No external source makes two reports at one sample instant. -/
theorem State.nodup_source_sampleReports (s : State) (src : Tbl 24 Level) :
    (((s.accepting src).map (s.sampleReport src)).map LevelReport.source).Nodup := by
  rw [List.map_map]
  exact (nodup_allOf.filter _).map External.toSource_injective

theorem State.mem_sampleReports {s : State} {src : Tbl 24 Level} {rep : LevelReport} :
    rep ∈ (s.accepting src).map (s.sampleReport src) ↔ ∃ e : External,
      ((s.sample src).scu.conditioners.read e).accepted ≠ (s.scu.conditioners.read e).accepted ∧
      rep = { source := External.toSource e, new := src.read e, previous := (s.scu.conditioners.read e).accepted,
              time := s.tbu.hubClock } := by
  simp only [List.mem_map, State.mem_accepting, @eq_comm _ rep]
  rfl

/-! ### The filter length in use changed (R7) -/

@[simp] theorem Scu.internal_changeFilter (c : Scu) (source : Source) (before after : Byte) :
    (c.changeFilter source before after).internal = c.internal := by
  unfold Scu.changeFilter
  split
  · split <;> rfl
  · rfl

@[simp] theorem Scu.changeFilter_same (c : Scu) (source : Source) (filter : Byte) :
    c.changeFilter source filter filter = c := by
  simp [Scu.changeFilter]

/-- An internal source has no run length. -/
theorem Scu.changeFilter_of_internal (c : Scu) {source : Source} (h : ¬ source.val < 24) (before after : Byte) :
    c.changeFilter source before after = c := dif_neg h

theorem Scu.conditioners_changeFilter_toSource (c : Scu) (e : External) {before after : Byte} (h : before ≠ after) :
    (c.changeFilter (External.toSource e) before after).conditioners =
      c.conditioners.write e { c.conditioners.read e with runLength := 0 } := by
  have he : (External.toSource e).val < 24 := e.isLt
  simp only [Scu.changeFilter, he, h, dif_pos, if_false]
  rfl

theorem Scu.read_conditioners_changeFilter (c : Scu) (source : Source) (before after : Byte) (e : External) :
    (c.changeFilter source before after).conditioners.read e =
      if External.toSource e = source ∧ before ≠ after then { c.conditioners.read e with runLength := 0 }
      else c.conditioners.read e := by
  by_cases hfilter : before = after
  · subst hfilter
    simp
  by_cases hsource : source.val < 24
  · obtain ⟨x, rfl⟩ : ∃ x : External, External.toSource x = source := ⟨⟨source.val, hsource⟩, rfl⟩
    rw [Scu.conditioners_changeFilter_toSource c x hfilter, Tbl.read_write]
    by_cases hx : e = x
    · subst hx
      simp [hfilter]
    · simp [hx, External.toSource_injective.eq_iff]
  · have hne : External.toSource e ≠ source := fun h => hsource (h ▸ e.isLt)
    rw [Scu.changeFilter_of_internal c hsource, if_neg fun h => hne h.1]

/-! ### Which reports are events (R9) -/

theorem Sense.isEvent_levelHigh {previous : Accepted} {new : Level} :
    Sense.levelHigh.isEvent previous new = true ↔ new = .high := decide_eq_true_iff

theorem Sense.isEvent_levelLow {previous : Accepted} {new : Level} :
    Sense.levelLow.isEvent previous new = true ↔ new = .low := decide_eq_true_iff

theorem Sense.isEvent_rise {previous : Accepted} {new : Level} :
    Sense.rise.isEvent previous new = true ↔ previous = .known .low ∧ new = .high := decide_eq_true_iff

theorem Sense.isEvent_fall {previous : Accepted} {new : Level} :
    Sense.fall.isEvent previous new = true ↔ previous = .known .high ∧ new = .low := decide_eq_true_iff

/-- Under BOTH, an event is a change between two known levels. -/
theorem Sense.isEvent_both {previous : Accepted} {new : Level} :
    Sense.both.isEvent previous new = true ↔ previous ≠ .unknown ∧ previous ≠ .known new := by
  refine decide_eq_true_iff.trans ?_
  cases previous with
  | unknown => simp
  | known level => cases level <;> cases new <;> simp

theorem exec_levelChangeReport_of_live {s : State} (h : s.live = true) (source : Source) :
    exec (.levelChangeReport source) s = .next (s.applyRtu (s.rtu.takeOldestReport source)) :=
  congrArg Host.Outcome.next (State.whenLive_of_live h _)

/-- The oldest report of a source that is no event leaves the list of reports, and has no other effect. -/
theorem exec_levelChangeReport_of_no_event {s : State} {rep : LevelReport} {before after : List LevelReport}
    (hlive : s.live = true) (holdest : s.rtu.oldestReport before rep after)
    (hno : (s.rtu.record rep.source).status = .unbound ∨
      (s.rtu.record rep.source).sense.isEvent rep.previous rep.new = false) :
    exec (.levelChangeReport rep.source) s =
      .next { s with rtu := { s.rtu with reports := before ++ after } } := by
  let r : Rtu := { s.rtu with reports := before ++ after }
  have htaken : s.rtu.takeOldestReport rep.source = RtuStep.quiet r :=
    (Rtu.takeOldestReport_eq holdest).trans (Rtu.takeReport_of_not (r := r) hno)
  rw [exec_levelChangeReport_of_live hlive, htaken, State.applyRtu_quiet_of_same (show r.sets = s.rtu.sets from rfl)]

/-! ### The statements -/

/-- Settles O11: the filter by the three outcomes of a sample (agreeing, run too short, run complete), the reports by
"the accepted level changes exactly when the sample is accepted". -/
theorem samplesAreFilteredAndReported : Obligations.SamplesAreFilteredAndReported := by
  refine ⟨fun src s hlive => ⟨_, exec_sampleInstant_of_live hlive src, fun e level hknown => ?_⟩,
    fun src s hlive => ⟨_, _, exec_sampleInstant_of_live hlive src, rfl, s.nodup_source_sampleReports src,
      fun _ => State.mem_sampleReports⟩,
    fun src s hlive => ⟨_, exec_sampleInstant_of_live hlive src, fun e hunknown => ?_⟩,
    fun c source before after =>
      ⟨c.internal_changeFilter source before after, c.read_conditioners_changeFilter source before after⟩⟩
  · -- the accepted level is known (R5)
    simp only [State.read_conditioners_sample]
    refine ⟨Conditioner.lastSample_take .., fun hagree => ?_, fun hdiffer hshort => ?_, fun hdiffer hcomplete => ?_⟩
    · rw [Conditioner.take_of_agreeing (hagree ▸ hknown)]
      exact ⟨rfl, rfl⟩
    · rw [← Conditioner.nextRun_of_differing hknown hdiffer] at hshort ⊢
      rw [Conditioner.take_of_short hshort]
      exact ⟨rfl, rfl⟩
    · rw [← Conditioner.nextRun_of_differing hknown hdiffer] at hcomplete
      rw [Conditioner.take_of_complete hcomplete]
      exact ⟨rfl, rfl⟩
  · -- the accepted level is UNKNOWN (R6)
    simp only [State.read_conditioners_sample, ← Conditioner.nextRun_of_unknown hunknown]
    refine ⟨Conditioner.lastSample_take .., fun hshort => ?_, fun hcomplete => ?_⟩
    · rw [Conditioner.take_of_short hshort]
      exact ⟨hunknown, rfl⟩
    · rw [Conditioner.take_of_complete hcomplete]
      exact ⟨rfl, rfl⟩

/-- Settles O12: one equivalence per sense code, and a report that is no event is taken quietly. -/
theorem senseDecidesEvents : Obligations.SenseDecidesEvents :=
  ⟨fun _ _ => ⟨Sense.isEvent_levelHigh, Sense.isEvent_levelLow, Sense.isEvent_rise, Sense.isEvent_fall,
      Sense.isEvent_both⟩,
    fun _ _ _ _ hlive holdest hno => exec_levelChangeReport_of_no_event hlive holdest hno⟩

end Sys2Proof.Machine
end

section
/-! Source events: what LEVEL_CHANGE_REPORT does when the report is an event of its source, by the routing state of the
source (R41 to R45). -/

namespace Sys2Proof.Machine

/-! ### The event a report makes -/

/-- The oldest report of a source, when it is an event, leaves the list of reports and is handled as that event. -/
theorem exec_levelChangeReport_of_event {s : State} {rep : LevelReport} {before after : List LevelReport} {x : RtuStep}
    (hlive : s.live = true) (holdest : s.rtu.oldestReport before rep after)
    (hbound : (s.rtu.record rep.source).status ≠ .unbound)
    (hevent : (s.rtu.record rep.source).sense.isEvent rep.previous rep.new = true)
    (hx : Rtu.event { s.rtu with reports := before ++ after }
      { source := rep.source, level := rep.new, time := rep.time } = x) :
    exec (.levelChangeReport rep.source) s = .next (s.applyRtu x) := by
  rw [exec_levelChangeReport_of_live hlive, Rtu.takeOldestReport_eq holdest,
    Rtu.takeReport_of_event (r := { s.rtu with reports := before ++ after }) hbound hevent, hx]

/-- The post an event hands to the NQ, under the report flag of its source (R44). -/
theorem map_source_posts (report : Bool) (p : SourcePost) :
    (if report then [p] else []).map Post.source = if report then [Post.source p] else [] := by
  cases report <;> rfl

/-! ### A join, as the other blocks see it -/

/-- A source that joins the set of one line changes the occupancy exactly when it is the set's first member (R61). -/
theorem State.applyRtu_of_joined {s : State} {x : RtuStep} {source : Source} {l : Line} {ahead behind : List Source}
    (h : x.rtu.sets = s.rtu.sets.write l (ahead ++ source :: behind)) :
    s.applyRtu x = { s with
      rtu := x.rtu
      ald := { s.ald with
        triggers := s.ald.triggers ++ x.triggers
        occupancy := s.ald.occupancy ++ if s.rtu.sets.read l = [] then [l] else [] }
      nq := { s.nq with posts := s.nq.posts ++ x.posts.map Post.source } } := by
  have hothers : ∀ m, m ≠ l → x.rtu.sets.read m = s.rtu.sets.read m := fun m hm => by
    rw [h, Tbl.read_write_of_ne _ _ hm]
  have hjoined : x.rtu.sets.read l ≠ [] := by simp [h]
  have hchange : s.rtu.occupancyChanges x.rtu = if s.rtu.sets.read l = [] then [l] else [] := by
    rw [Rtu.occupancyChanges_of_one l hothers]
    by_cases hfirst : s.rtu.sets.read l = [] <;> simp [hfirst, hjoined]
  simp only [State.applyRtu, hchange, Nq.hand]

/-! ### The statements -/

/-- Settles O14: in each clause the event leaves the pending sets as they are, so it hands no trigger and no occupancy
change; a lawful REPORT_ONLY record has its report flag set, so its event always posts. -/
theorem eventsThatJoinNothing : Obligations.EventsThatJoinNothing := by
  refine ⟨fun s rep before after hlive holdest hbound hevent hmask => ?masked,
    fun s rep before after l hlive holdest hpending htarget hevent hmask => ?pending,
    fun s rep before after hlive holdest hidle htarget hlawful hevent hmask => ?reportOnly⟩
  case masked =>
    rw [exec_levelChangeReport_of_event hlive holdest hbound hevent (Rtu.event_of_masked hbound hmask),
      State.applyRtu_quiet_of_same (by rfl)]
    rfl
  case pending =>
    have hbound : (s.rtu.record rep.source).status ≠ .unbound := by simp [hpending]
    rw [exec_levelChangeReport_of_event hlive holdest hbound hevent
      (Rtu.event_of_pending hpending hmask htarget), State.applyRtu_of_same (by rfl)]
    simp only [map_source_posts, List.append_nil]
    rfl
  case reportOnly =>
    have hbound : (s.rtu.record rep.source).status ≠ .unbound := by simp [hidle]
    obtain ⟨-, hreportOnly, -⟩ := hlawful.1 rep.source
    obtain ⟨-, -, hreport⟩ := hreportOnly hbound htarget
    rw [exec_levelChangeReport_of_event hlive holdest hbound hevent
      (Rtu.event_of_reportOnly hbound hmask htarget), State.applyRtu_of_same (by rfl)]
    simp [hreport]

/-- Settles O15: the set is ordered by priority, so the join has a place between `ahead` and `behind`, and the other
blocks see it as any join. -/
theorem eventOfIdleSourceJoins : Obligations.EventOfIdleSourceJoins := by
  intro s rep before after l hlive hlawful holdest hidle htarget hevent hmask
  have hbound : (s.rtu.record rep.source).status ≠ .unbound := by simp [hidle]
  obtain ⟨-, -, -, hordered⟩ := hlawful
  obtain ⟨ahead, behind, hbetween, hjoin⟩ :=
    Rtu.join_eq { s.rtu with reports := before ++ after } rep.source l (hordered l)
  refine ⟨ahead, behind, hbetween, ?_⟩
  rw [exec_levelChangeReport_of_event hlive holdest hbound hevent
    (Rtu.event_of_idle hidle hmask htarget), hjoin, State.applyRtu_of_joined (by rfl)]
  simp only [map_source_posts]
  rfl

end Sys2Proof.Machine
end

section
/-! The attention lines: what a trigger and the two timer expiries make of the record of a line, and what the commands that
bring them make of the state (R63 to R66). -/

namespace Sys2Proof.Machine

/-! ### One line -/

/-- A trigger at rest starts a pulse (R63). -/
theorem LineRecord.trigger_of_quiet {x : LineRecord} (henable : x.settings.enable = true)
    (hmode : x.settings.mode = .pulse) (hphase : x.phase = .quiet) :
    x.trigger = { x with phase := .pulse x.settings.width, output := .asserted } := by
  simp [LineRecord.trigger, henable, hmode, hphase]

/-- A trigger during a pulse or its gap is owed (R64). -/
theorem LineRecord.trigger_of_not_quiet {x : LineRecord} (henable : x.settings.enable = true)
    (hmode : x.settings.mode = .pulse) (hphase : x.phase ≠ .quiet) : x.trigger = { x with owed := true } := by
  simp only [LineRecord.trigger, henable, hmode]
  cases h : x.phase with
  | quiet => exact absurd h hphase
  | pulse length => rfl
  | gap length => rfl

/-- Only an enabled PULSE-mode line heeds a trigger (R61, R63, R69). -/
theorem LineRecord.trigger_of_unheeded {x : LineRecord}
    (h : x.settings.enable = false ∨ x.settings.mode = .level) : x.trigger = x := by
  rcases h with h | h <;> simp [LineRecord.trigger, h]

/-- The end of a pulse starts the gap (R65). -/
theorem LineRecord.endPulse_of_pulse {x : LineRecord} {length : Byte} (h : x.phase = .pulse length) :
    x.endPulse = { x with phase := .gap x.settings.gap, output := .released } := by
  simp [LineRecord.endPulse, h]

/-- The end of a gap starts the owed pulse, or leaves the line at rest (R66). -/
theorem LineRecord.endGap_of_gap {x : LineRecord} {length : Byte} (h : x.phase = .gap length) (nonempty : Bool) :
    x.endGap nonempty =
      if x.owed = true ∧ nonempty = true then
        { x with owed := false, phase := .pulse x.settings.width, output := .asserted }
      else { x with owed := false, phase := .quiet } := by
  simp [LineRecord.endGap, h]

/-! ### The commands -/

/-- A waiting trigger of either kind leaves the list of triggers and is taken by its line. -/
theorem exec_triggerCommand_of_mem {kind : TriggerKind} {l : Line} {s : State} (hlive : s.live = true)
    (hmem : { kind := kind, line := l } ∈ s.ald.triggers) :
    exec (triggerCommand kind l) s = .next { s with ald := { s.ald with
      triggers := s.ald.triggers.erase { kind := kind, line := l }
      lines := s.ald.lines.write l (s.ald.lines.read l).trigger } } := by
  have htaken : s.ald.takeTrigger { kind := kind, line := l } = { s.ald with
      triggers := s.ald.triggers.erase { kind := kind, line := l }
      lines := s.ald.lines.write l (s.ald.lines.read l).trigger } := if_pos hmem
  have hexec : exec (triggerCommand kind l) s =
      .next (s.whenLive (s.withAld (s.ald.takeTrigger { kind := kind, line := l }))) := by
    cases kind <;> rfl
  rw [hexec, State.whenLive_of_live hlive, htaken]
  rfl

theorem exec_widthTimerExpiry_of_live {s : State} (h : s.live = true) (l : Line) :
    exec (.widthTimerExpiry l) s = .next { s with ald := { s.ald with
      lines := s.ald.lines.write l (s.ald.lines.read l).endPulse } } :=
  congrArg Host.Outcome.next (State.whenLive_of_live h _)

theorem exec_gapTimerExpiry_of_live {s : State} (h : s.live = true) (l : Line) :
    exec (.gapTimerExpiry l) s = .next { s with ald := { s.ald with
      lines := s.ald.lines.write l ((s.ald.lines.read l).endGap (s.rtu.nonempty l)) } } :=
  congrArg Host.Outcome.next (State.whenLive_of_live h _)

/-! ### The statement -/

/-- Settles O16: each command replaces the record of its line by what the trigger or the expiry makes of it, so each clause
is the equation of the record in that mode and phase. -/
theorem pulseLineAnswersTriggers : Obligations.PulseLineAnswersTriggers := by
  refine ⟨fun kind l s hlive hmem henable hmode hphase => ?quiet,
    fun kind l s hlive hmem henable hmode hphase => ?busy,
    fun kind l s hlive hmem hunheeded => ?unheeded,
    fun l s width hlive hphase => ?widthExpiry,
    fun l s gap hlive hphase => ?gapExpiry⟩
  case quiet =>
    rw [exec_triggerCommand_of_mem hlive hmem, LineRecord.trigger_of_quiet henable hmode hphase]
  case busy =>
    rw [exec_triggerCommand_of_mem hlive hmem, LineRecord.trigger_of_not_quiet henable hmode hphase]
  case unheeded =>
    rw [exec_triggerCommand_of_mem hlive hmem, LineRecord.trigger_of_unheeded hunheeded, Tbl.write_read]
  case widthExpiry =>
    rw [exec_widthTimerExpiry_of_live hlive, LineRecord.endPulse_of_pulse hphase]
  case gapExpiry =>
    rw [exec_gapTimerExpiry_of_live hlive, LineRecord.endGap_of_gap hphase, Rtu.nonempty_eq]
    simp only [decide_eq_true_eq]

end Sys2Proof.Machine
end

section
/-! The check value: its register as an iterated step, what the register makes of its own two bytes, and the check bytes
of a frame (R165). -/

namespace Sys2Proof.Machine

/-! ### The check register -/

theorem crcShifts_eq_iterate (n : Nat) (r : Half) : crcShifts n r = crcShift^[n] r := by
  induction n generalizing r with
  | zero => rfl
  | succ n ih => exact ih (crcShift r)

theorem crcByte_eq_iterate (r : Half) (b : Byte) : crcByte r b = crcShift^[8] (r ^^^ (b ++ 0#8)) :=
  crcShifts_eq_iterate 8 _

theorem crc16_eq_foldl_iterate (bytes : List Byte) :
    crc16 bytes = bytes.foldl (fun r b => crcShift^[8] (r ^^^ (b ++ 0#8))) 0xFFFF := by
  simp only [← crcByte_eq_iterate]
  rfl

theorem crc16_append (covered more : List Byte) : crc16 (covered ++ more) = more.foldl crcByte (crc16 covered) :=
  List.foldl_append

/-- A step that shifts out a 0 is a plain shift. -/
theorem crcShift_of_lt {r : Half} (h : 2 * r.toNat < 2 ^ 16) : crcShift r = r <<< 1 :=
  if_neg (by simp [BitVec.msb_eq_false_iff_two_mul_lt.mpr h])

/-- While the bits shifted out are all 0, the polynomial never enters, and the steps are one shift. -/
theorem crcShifts_of_lt {n : Nat} {r : Half} (h : r.toNat * 2 ^ n < 2 ^ 16) : crcShifts n r = r <<< n := by
  induction n generalizing r with
  | zero => simp [crcShifts]
  | succ n ih =>
    have hdouble : 2 * r.toNat * 2 ^ n < 2 ^ 16 := by rwa [Nat.mul_comm 2, Nat.mul_assoc, ← Nat.pow_succ']
    have hfirst : 2 * r.toNat < 2 ^ 16 := (Nat.le_mul_of_pos_right _ (Nat.two_pow_pos n)).trans_lt hdouble
    have hshift : (r <<< 1).toNat = 2 * r.toNat := by
      rw [BitVec.toNat_shiftLeft, Nat.shiftLeft_eq, Nat.mul_comm, pow_one, Nat.mod_eq_of_lt hfirst]
    calc crcShifts (n + 1) r
      _ = crcShifts n (r <<< 1) := by rw [crcShifts, crcShift_of_lt hfirst]
      _ = r <<< 1 <<< n := ih (by rwa [hshift])
      _ = r <<< (n + 1) := by rw [← BitVec.shiftLeft_add, Nat.add_comm]

/-! ### The register run on over its own bytes -/

/-- The exclusive-or of the register with its own high byte clears the upper eight bits, which are all that the eight steps
shift out: the low byte is left, moved up. -/
theorem crcByte_high (high low : Byte) : crcByte (high ++ low) high = low ++ 0#8 := by
  have hcleared : (high ++ low) ^^^ (high ++ 0#8) = 0#8 ++ low := by
    rw [BitVec.xor_append, BitVec.xor_self, BitVec.xor_zero]
  have hsmall : (0#8 ++ low).toNat * 2 ^ 8 < 2 ^ 16 := by
    have := low.isLt
    simp only [BitVec.toNat_append, BitVec.toNat_ofNat, Nat.zero_mod, Nat.zero_shiftLeft, Nat.zero_or]
    omega
  have hmoved : (0#8 ++ low) <<< 8 = low ++ 0#8 :=
    calc (0#8 ++ low) <<< 8
      _ = (0#8 ++ low).extractLsb' 0 8 ++ 0#8 := BitVec.shiftLeft_eq_concat_of_lt (by decide)
      _ = low ++ 0#8 := by rw [BitVec.extractLsb'_append_eq_right]
  rw [crcByte, hcleared]
  exact (crcShifts_of_lt hsmall).trans hmoved

/-- A two-byte field is the high byte and the low byte of its word. -/
theorem be16_eq (h : Half) : ∃ high low : Byte, high ++ low = h ∧ be16 h = [high, low] :=
  ⟨h.extractLsb' 8 8, h.extractLsb' 0 8, BitVec.extractLsb'_append_extractLsb', rfl⟩

/-- Run on over its own two bytes, high byte first, the register ends at 0. -/
theorem foldl_crcByte_be16 (r : Half) : (be16 r).foldl crcByte r = 0 := by
  obtain ⟨high, low, rfl, hbytes⟩ := be16_eq r
  calc (be16 (high ++ low)).foldl crcByte (high ++ low)
    _ = crcByte (crcByte (high ++ low) high) low := by rw [hbytes]; rfl
    _ = crcByte (low ++ 0#8) low := by rw [crcByte_high]
    _ = 0#8 ++ 0#8 := crcByte_high low 0#8

/-! ### The examples of R165 -/

theorem crc16_digits : crc16 [0x31, 0x32, 0x33, 0x34, 0x35, 0x36, 0x37, 0x38, 0x39] = 0x29B1 := by decide +kernel

/-- The check value of RESYNC by the register after each covered byte, as the table of 10.2.1 has it. -/
theorem crc16_resync : crc16 [0x1F, 0x00, 0x00] = 0xA3CE := by
  have hkind : crcByte Config.crcInitial 0x1F = 0x022E := by decide
  have htag : crcByte 0x022E 0x00 = 0x0E42 := by decide
  have hlength : crcByte 0x0E42 0x00 = 0xA3CE := by decide
  simp only [crc16, List.foldl_cons, List.foldl_nil, hkind, htag, hlength]

theorem bytes_resync : Frame.bytes { kind := 0x1F, tag := 0, body := [] } = [0xC3, 0x1F, 0x00, 0x00, 0xA3, 0xCE] := by
  have hcovered : Frame.covered { kind := 0x1F, tag := 0, body := [] } = [0x1F, 0x00, 0x00] := rfl
  have hcheck : be16 0xA3CE = [0xA3, 0xCE] := by decide
  rw [Frame.bytes, hcovered, crc16_resync, hcheck]
  rfl

/-! ### The check bytes of a frame -/

/-- The last two bytes of a frame sent are its check value, high byte first. -/
theorem Frame.bytes_eq (f : Frame) : ∃ high low : Byte,
    high ++ low = crc16 ([f.kind, f.tag, BitVec.ofNat 8 f.body.length] ++ f.body) ∧
      f.bytes = [0xC3, f.kind, f.tag, BitVec.ofNat 8 f.body.length] ++ f.body ++ [high, low] := by
  obtain ⟨high, low, hcheck, hbytes⟩ := be16_eq (crc16 f.covered)
  exact ⟨high, low, hcheck, by rw [← hbytes]; rfl⟩

/-- The second check byte of a frame received completes it as good or as a check error (R136). -/
theorem Receiving.take_checkLow (k tag n high b : Byte) (bytes : List Byte) :
    Receiving.take b (.checkLow k tag n bytes high) =
      if crc16 (k :: tag :: n :: bytes) = high ++ b then (.hunt, .good { kind := k, tag := tag, body := bytes })
      else (.hunt, .checkError) := by
  split
  next hagree => exact Receiving.take_check_good hagree
  next hdiffer => exact Receiving.take_check_bad hdiffer

/-! ### The statement -/

/-- Settles O30: the residue is 0 because the register, run over its own high byte, is left with its low byte as the new
high byte (`crcByte_high`, used twice). -/
theorem checkValueOfFrame : Obligations.CheckValueOfFrame := by
  refine ⟨crc16_eq_foldl_iterate, crc16_digits, bytes_resync, fun bytes => ?residue, Frame.bytes_eq,
    Receiving.take_checkLow⟩
  case residue => rw [crc16_append, foldl_crcByte_be16]

end Sys2Proof.Machine
end

section
/-! What one command can do: one case per way the state can change, with the conditions under which the model lets it
happen. The laws that every step keeps are proved case by case over it. -/

namespace Sys2Proof.Machine

/-! ### What the owner of a request can answer -/

/-- What the owner of a request can answer, from the state in which the frame has left the receive buffer. -/
inductive OwnerEffect (s : State) : Answer → Prop
  | refused (result : Result) : OwnerEffect s (s.refuse result)
  | reported (fields : List Byte) : OwnerEffect s (s.accept fields)
  | countersCleared (fields : List Byte) :
      OwnerEffect s ((s.withMlk { s.mlk with counters := LinkCounters.zero }).accept fields)
  | bound (f : BindFields) (fields : List Byte) (reports : f.target = .reportOnly → f.report = true)
      (unbound : (s.rtu.record f.source).isBound = false) (admitted : s.rtu.admits f.target f.cls = true) :
      OwnerEffect s
        (((s.withScu (s.scu.changeFilter f.source (s.rtu.record f.source).filter f.record.filter)).applyRtu
          (s.rtu.bind f (s.scu.level f.source) s.now)).accept fields)
  | unbound (source : Source) (fields : List Byte) : OwnerEffect s ((s.takePosts.unbind source).accept fields)
  | masked (source : Source) (fields : List Byte) (bound : (s.rtu.record source).isBound = true) :
      OwnerEffect s ((s.applyRtu (RtuStep.quiet (s.rtu.maskOn source))).accept fields)
  | unmasked (source : Source) (fields : List Byte) (bound : (s.rtu.record source).isBound = true) :
      OwnerEffect s ((s.applyRtu (s.rtu.maskOff source (s.scu.level source) s.now)).accept fields)
  | served (source : Source) (fields : List Byte) (pending : (s.rtu.record source).status = .pending) :
      OwnerEffect s ((s.applyRtu (s.rtu.service source (s.scu.level source))).accept fields)
  | lineSet (line : Line) (settings : LineSettings) (fields : List Byte) (width : settings.width ≠ 0)
      (gap : settings.gap ≠ 0) (pair : ¬ (settings.drive = .openDrain ∧ settings.polarity = .activeHigh)) :
      OwnerEffect s
        ((s.withAld (s.ald.update line fun _ => LineRecord.set settings (s.rtu.nonempty line))).accept fields)
  | channelSet (channel : Channel) (settings : ChannelSettings) (fields : List Byte) (settle : settings.settleLimit ≠ 0)
      (age : settings.ageLimit.toNat ≤ 15)
      (free : ((s.gar.channel channel).inUse && settings.lockedDiffers (s.gar.channel channel).settings) = false) :
      OwnerEffect s ((s.applyGar (s.gar.configure channel settings s.now)).accept fields)
  | assigned (f : AssignFields) (fields : List Byte)
      (free : (s.gar.requester f.requester).state.isEngaged = false) :
      OwnerEffect s ((s.applyGar (s.gar.assign f s.now)).evaluate.accept fields)
  | revoked (channel : Channel) (fields : List Byte) :
      OwnerEffect s ((s.applyGar (s.gar.takeBack channel .revoke s.now)).evaluate.accept fields)
  | acknowledged (numbers : List Byte) (fields : List Byte) :
      OwnerEffect s
        ((((s.withNq (s.nq.acknowledgeAll numbers).1).withMlk (s.mlk.withSender
          (s.mlk.sender.acknowledged (((s.nq.acknowledgeAll numbers).2.filter Prod.snd).map Prod.fst)
            (s.nq.acknowledgeAll numbers).1.inFlightCount s.mlk.settings.retransmitMs))).evaluate).accept fields)
  | linkSet (settings : LinkSettings) (lawful : settings.lawful) :
      OwnerEffect s
        { state := s.withMlk { s.mlk with settings := settings }
          result := .ok
          fields := []
          rateSwitch := if settings.rate = s.mlk.settings.rate then none else some settings.rate }
  | resynced :
      OwnerEffect s ((State.evaluate ((s.withNq s.nq.resync).withMlk
        { s.mlk with saved := none, sender := Sender.initial })).accept [])

theorem orRange_eq_ok {α : Type} {fields : Option α} {a : α} : orRange fields = .ok a ↔ fields = some a := by
  cases fields <;> simp [orRange]

theorem boundedField_eq_some {low high : Nat} {b c : Byte} :
    boundedField low high b = some c ↔ (low ≤ b.toNat ∧ b.toNat ≤ high) ∧ b = c := by
  simp [boundedField]

/-- A BIND that is read asks for reports or has a line target (R24). -/
theorem report_of_readBind {body : List Byte} {f : BindFields} (h : readBind body = .ok f) :
    f.target = .reportOnly → f.report = true := by
  unfold readBind at h
  split at h
  · simp only [orRange_eq_ok, Option.bind_eq_bind, Option.bind_eq_some_iff] at h
    obtain ⟨source, -, target, -, cls, -, priority, -, sense, -, report, -, h⟩ := h
    split at h
    next => cases h
    next hok =>
      cases h
      simpa using hok
  · cases h

/-- The settings that a LINE_SET is read to give are valid (R70). -/
theorem valid_of_readLineSet {body : List Byte} {line : Line} {x : LineSettings}
    (h : readLineSet body = .ok (line, x)) :
    x.width ≠ 0 ∧ x.gap ≠ 0 ∧ ¬ (x.drive = .openDrain ∧ x.polarity = .activeHigh) := by
  unfold readLineSet at h
  split at h
  · simp only [orRange_eq_ok, Option.bind_eq_bind, Option.bind_eq_some_iff, boundedField_eq_some] at h
    obtain ⟨line, -, enable, -, mode, -, polarity, -, drive, -, width, ⟨⟨hwidth, -⟩, rfl⟩, gap, ⟨⟨hgap, -⟩, rfl⟩, h⟩ := h
    split at h
    next => cases h
    next hok =>
      cases h
      exact ⟨by rintro rfl; simp at hwidth, by rintro rfl; simp at hgap, hok⟩
  · cases h

/-- The settings that a CHANNEL_SET is read to give are valid (R104). -/
theorem valid_of_readChannelSet {body : List Byte} {channel : Channel} {x : ChannelSettings}
    (h : readChannelSet body = .ok (channel, x)) : x.settleLimit ≠ 0 ∧ x.ageLimit.toNat ≤ 15 := by
  unfold readChannelSet at h
  split at h
  · simp only [orRange_eq_ok, Option.bind_eq_bind, Option.bind_eq_some_iff, boundedField_eq_some] at h
    obtain ⟨channel, -, isOpen, -, policy, -, settle, ⟨⟨hsettle, -⟩, rfl⟩, age, ⟨⟨-, hage⟩, rfl⟩, report, -, h⟩ := h
    cases h
    exact ⟨by rintro rfl; simp at hsettle, hage⟩
  · cases h

/-- The settings that a LINK_SET is read to give are lawful (R147). -/
theorem lawful_of_readLinkSet {body : List Byte} {x : LinkSettings} (h : readLinkSet body = .ok x) : x.lawful := by
  unfold readLinkSet at h
  split at h
  · simp only [orRange_eq_ok, Option.bind_eq_bind, Option.bind_eq_some_iff, boundedField_eq_some] at h
    obtain ⟨rate, -, window, ⟨⟨hw1, hw4⟩, rfl⟩, interval, ⟨⟨hi1, -⟩, rfl⟩, retry, ⟨⟨hr1, hr15⟩, rfl⟩, h⟩ := h
    cases h
    exact ⟨hw1, hw4, hi1, hr1, hr15⟩
  · cases h

theorem statusOwner_effect (body : List Byte) (s : State) : OwnerEffect s (statusOwner body s) := by
  unfold statusOwner
  split
  · exact .refused _
  next clear _ =>
    cases clear with
    | false => exact .reported _
    | true => exact .countersCleared _

theorem bindOwner_effect (body : List Byte) (s : State) : OwnerEffect s (bindOwner body s) := by
  unfold bindOwner
  split
  · exact .refused _
  next f hf =>
    split
    · exact .refused _
    next hunbound =>
      split
      · exact .refused _
      next hadmitted =>
        exact .bound f _ (report_of_readBind hf) (by simpa using hunbound) (by simpa using hadmitted)

theorem unbindOwner_effect (body : List Byte) (s : State) : OwnerEffect s (unbindOwner body s) := by
  unfold unbindOwner
  split
  · exact .refused _
  · split
    · exact .refused _
    · exact .unbound _ _

theorem sourceQueryOwner_effect (body : List Byte) (s : State) : OwnerEffect s (sourceQueryOwner body s) := by
  unfold sourceQueryOwner
  split
  · exact .refused _
  · exact .reported _

theorem maskOnOwner_effect (body : List Byte) (s : State) : OwnerEffect s (maskOnOwner body s) := by
  unfold maskOnOwner
  split
  · exact .refused _
  · split
    · exact .refused _
    next hbound => exact .masked _ _ (by simpa using hbound)

theorem maskOffOwner_effect (body : List Byte) (s : State) : OwnerEffect s (maskOffOwner body s) := by
  unfold maskOffOwner
  split
  · exact .refused _
  · split
    · exact .refused _
    next hbound => exact .unmasked _ _ (by simpa using hbound)

theorem serviceOwner_effect (body : List Byte) (s : State) : OwnerEffect s (serviceOwner body s) := by
  unfold serviceOwner
  split
  · exact .refused _
  · split
    · exact .refused _
    · exact .refused _
    next hpending => exact .served _ _ hpending

theorem pendingListOwner_effect (body : List Byte) (s : State) : OwnerEffect s (pendingListOwner body s) := by
  unfold pendingListOwner
  split
  · exact .refused _
  · exact .reported _

theorem lineSetOwner_effect (body : List Byte) (s : State) : OwnerEffect s (lineSetOwner body s) := by
  unfold lineSetOwner
  split
  · exact .refused _
  next line settings h =>
    obtain ⟨hwidth, hgap, hpair⟩ := valid_of_readLineSet h
    exact .lineSet _ _ _ hwidth hgap hpair

theorem lineQueryOwner_effect (body : List Byte) (s : State) : OwnerEffect s (lineQueryOwner body s) := by
  unfold lineQueryOwner
  split
  · exact .refused _
  · exact .reported _

theorem channelSetOwner_effect (body : List Byte) (s : State) : OwnerEffect s (channelSetOwner body s) := by
  unfold channelSetOwner
  split
  · exact .refused _
  next channel settings h =>
    obtain ⟨hsettle, hage⟩ := valid_of_readChannelSet h
    split
    · exact .refused _
    next hfree => exact .channelSet _ _ _ hsettle hage (by simpa using hfree)

theorem assignOwner_effect (body : List Byte) (s : State) : OwnerEffect s (assignOwner body s) := by
  unfold assignOwner
  split
  · exact .refused _
  · split
    · exact .refused _
    next hfree => exact .assigned _ _ (by simpa using hfree)

theorem channelQueryOwner_effect (body : List Byte) (s : State) : OwnerEffect s (channelQueryOwner body s) := by
  unfold channelQueryOwner
  split
  · exact .refused _
  · exact .reported _

theorem revokeOwner_effect (body : List Byte) (s : State) : OwnerEffect s (revokeOwner body s) := by
  unfold revokeOwner
  split
  · exact .refused _
  · split
    · exact .revoked _ _
    · exact .refused _
    · exact .refused _

theorem noticeAckOwner_effect (body : List Byte) (s : State) : OwnerEffect s (noticeAckOwner body s) := by
  unfold noticeAckOwner
  split
  · exact .refused _
  · exact .acknowledged _ _

theorem linkSetOwner_effect (body : List Byte) (s : State) : OwnerEffect s (linkSetOwner body s) := by
  unfold linkSetOwner
  split
  · exact .refused _
  next settings h => exact .linkSet _ (lawful_of_readLinkSet h)

theorem resyncOwner_effect (body : List Byte) (s : State) : OwnerEffect s (resyncOwner body s) := by
  cases body with
  | nil => exact .resynced
  | cons b rest => exact .refused _

/-! ### What the receiver can do -/

/-- What the receiver's own events do to the MLK. -/
inductive ReceiverEffect (m : Mlk) : Mlk → Prop
  | startBit : ReceiverEffect m (m.withReceiver { m.receiver with inCharacter := true, gapTimer := false })
  | character (byte : Byte) : ReceiverEffect m (m.receive byte)
  | fault : ReceiverEffect m (m.abortFrame.withReceiver
      { m.abortFrame.receiver with inCharacter := false, awaitMark := true })
  | mark : ReceiverEffect m (m.withReceiver { m.receiver with awaitMark := false })
  | gapLimit : ReceiverEffect m m.abortFrame

/-! ### What a command can do -/

/-- What one command can do to the state. -/
inductive State.Effect (s : State) : State → Prop
  | none : s.Effect s
  | powerOnHigh (req : Pins) : s.Effect ((State.powerOn .running req).withPending s.pending).startNext
  | powerOnLow (req : Pins) : s.Effect ((State.powerOn .resetLow req).withPending s.pending)
  | supplyDip : s.Effect
      { State.powerOn .powerOnReset (Tbl.fill 12 .low) with
        tbu := { mode := .powerOnReset, refclk := s.tbu.refclk, hubClock := 0 }
        nq := { queue := [], lossCount := 0, firstLossTime := .none, posts := [] }
        pending := s.pending }
  | enterReset : s.Effect s.enterReset
  | leaveReset (req : Pins) (low : s.tbu.mode = .resetLow) : s.Effect (s.leaveReset req)
  | refclk (runs : Bool) : s.Effect (s.withTbu { s.tbu with refclk := runs })
  | sampled (src : Tbl 24 Level) : s.Effect (s.sample src)
  | reportTaken (source : Source) : s.Effect (s.applyRtu (s.rtu.takeOldestReport source))
  | triggered (t : Trigger) : s.Effect (s.withAld (s.ald.takeTrigger t))
  | occupancyTaken (line : Line) : s.Effect (s.withAld (s.ald.takeOccupancy line (s.rtu.nonempty line)))
  | pulseEnded (line : Line) : s.Effect (s.withAld (s.ald.update line LineRecord.endPulse))
  | gapEnded (line : Line) : s.Effect (s.withAld (s.ald.update line fun l => l.endGap (s.rtu.nonempty line)))
  | postTaken (p : Post) (rest : List Post) (oldest : s.nq.posts = p :: rest) :
      s.Effect ((s.withNq { s.nq with posts := rest }).takePost p)
  | channelSampled (channel : Channel) (req done : Pins) (live : s.live = true) :
      s.Effect (s.applyGar (s.gar.sampleEvent channel req done s.now)).evaluate
  | holdExpired (channel : Channel) (live : s.live = true) (due : (s.gar.channel channel).holdTimer.due = true) :
      s.Effect (s.applyGar (s.gar.takeBack channel .holdTimeout s.now)).evaluate
  | settleExpired (channel : Channel) (live : s.live = true)
      (settling : (s.gar.channel channel).phase.isSettling = true) :
      s.Effect (s.applyGar ((s.gar.endSettling channel).grantTest channel s.now))
  | received (m : Mlk) (h : ReceiverEffect s.mlk m) : s.Effect (s.withMlk m)
  | indicationTaken (running : s.mlk.sender.link = .running) : s.Effect (s.withMlk s.mlk.takeIndication)
  | recovered (stalled : s.mlk.sender.link = .stalled) : s.Effect (s.withMlk s.mlk.takeIndication).recover
  | recoveredStarting (stalled : s.mlk.sender.link = .stalled) :
      s.Effect (s.withMlk s.mlk.takeIndication).recover.startNext
  | badKind (f : Frame) (next : s.nextFrame = some f) (reply : Frame) :
      s.Effect (s.takeFrame.withMlk (s.takeFrame.mlk.queueReply { frame := reply, rateSwitch := .none })).startNext
  | duplicate (f : Frame) (next : s.nextFrame = some f) (request : isRequestKind f.kind = true) (saved : Frame) :
      s.Effect
        (s.takeFrame.withMlk ((s.takeFrame.mlk.count fun c => { c with duplicates := satInc c.duplicates }).queueReply
          { frame := saved, rateSwitch := .none })).startNext
  | request (kind : RequestKind) (f : Frame) (a : Answer) (live : s.live = true) (next : s.nextFrame = some f)
      (ofKind : f.kind = kind.code) (owner : OwnerEffect s.takeFrame a) : s.Effect (State.finish f a)
  | frameSent (sending : s.mlk.tx ≠ .idle) : s.Effect (s.withMlk s.mlk.endFrame).startNext
  | roundBegun (due : s.mlk.sender.timer.due = true)
      (below : s.mlk.sender.retryCount < s.mlk.settings.retryLimit.toNat) :
      s.Effect (State.beginRound (s.withMlk
        (s.mlk.withSender { s.mlk.sender with retryCount := s.mlk.sender.retryCount + 1 }))).startNext
  | stalled (due : s.mlk.sender.timer.due = true) : s.Effect s.stall
  | tick : s.Effect s.tick

theorem State.Effect.whenLive {s t : State} (h : s.live = true → s.Effect t) : s.Effect (s.whenLive t) := by
  unfold State.whenLive
  split
  next hlive => exact h hlive
  next => exact .none

/-- A request command executes its request, or does nothing. -/
theorem State.Effect.execute {s : State} {owner : List Byte → State → Answer} (kind : RequestKind)
    (h : ∀ body s, OwnerEffect s (owner body s)) : s.Effect (s.whenLive (s.execute kind owner)) := by
  refine .whenLive fun hlive => ?_
  unfold State.execute
  split
  · exact .none
  next f hf =>
    split
    next hkind => exact .request kind f _ hlive hf hkind.1 (h _ _)
    next => exact .none

theorem State.Effect.ite {s t : State} {p : Prop} [Decidable p] (h : p → s.Effect t) :
    s.Effect (if p then t else s) := by
  split
  next hp => exact h hp
  next => exact .none

theorem execPowerOnReset_effect (s : State) (rstn : Level) (req : Pins) :
    ∃ t, execPowerOnReset rstn req s = .next t ∧ s.Effect t := by
  refine ⟨_, rfl, .ite fun _ => ?_⟩
  cases rstn with
  | high => exact .powerOnHigh req
  | low => exact .powerOnLow req

theorem execSourceEventPost_effect (s : State) : ∃ t, execSourceEventPost s = .next t ∧ s.Effect t := by
  refine ⟨_, rfl, .whenLive fun _ => ?_⟩
  split
  next p rest h => exact .postTaken _ _ h
  next => exact .none
  next => exact .none

theorem execGrantEventPost_effect (s : State) : ∃ t, execGrantEventPost s = .next t ∧ s.Effect t := by
  refine ⟨_, rfl, .whenLive fun _ => ?_⟩
  split
  next p rest h => exact .postTaken _ _ h
  next => exact .none
  next => exact .none

theorem execGoodFrameIndication_effect (s : State) (noticeFirst : Bool) :
    ∃ t, execGoodFrameIndication noticeFirst s = .next t ∧ s.Effect t := by
  refine ⟨_, rfl, .whenLive fun _ => .ite fun _ => ?_⟩
  cases hlink : s.mlk.sender.link with
  | running => exact .indicationTaken hlink
  | stalled =>
      cases noticeFirst with
      | false => exact .recovered hlink
      | true => exact .recoveredStarting hlink

theorem execBadKind_effect (s : State) : ∃ t, execBadKind s = .next t ∧ s.Effect t := by
  refine ⟨_, rfl, .whenLive fun _ => ?_⟩
  split
  next => exact .none
  next f hf =>
    split
    next => exact .none
    next => exact .badKind f hf _

theorem execDuplicate_effect (s : State) : ∃ t, execDuplicate s = .next t ∧ s.Effect t := by
  refine ⟨_, rfl, .whenLive fun _ => ?_⟩
  split
  next f saved hf _ =>
    refine .ite fun hdup => .duplicate f hf ?_ _
    simp only [State.isDuplicate, Bool.and_eq_true] at hdup
    exact hdup.1.1
  next => exact .none
  next => exact .none

theorem execRetransmitTimerExpiry_effect (s : State) : ∃ t, execRetransmitTimerExpiry s = .next t ∧ s.Effect t := by
  refine ⟨_, rfl, .whenLive fun _ => .ite fun hdue => ?_⟩
  split
  next hbelow => exact .roundBegun hdue hbelow
  next => exact .stalled hdue

theorem execMaskOn_effect (s : State) : ∃ t, execMaskOn s = .next t ∧ s.Effect t := by
  refine ⟨_, rfl, ?_⟩
  split
  next => exact .whenLive fun _ => .none
  next => exact .execute .mask maskOnOwner_effect

theorem execMaskOff_effect (s : State) : ∃ t, execMaskOff s = .next t ∧ s.Effect t := by
  refine ⟨_, rfl, ?_⟩
  split
  next => exact .whenLive fun _ => .none
  next => exact .execute .mask maskOffOwner_effect

/-- Every command answers a next state, and has one of the listed effects. -/
theorem exec_effect (c : Instr) (s : State) : ∃ t, exec c s = .next t ∧ s.Effect t := by
  cases c with
  | powerOnReset rstn req => exact execPowerOnReset_effect s rstn req
  | rstnLow => exact ⟨_, rfl, .whenLive fun _ => .enterReset⟩
  | rstnRelease req => exact ⟨_, rfl, .ite fun h => .leaveReset req h.1⟩
  | refclkStop => exact ⟨_, rfl, .refclk false⟩
  | refclkReturn => exact ⟨_, rfl, .refclk true⟩
  | sampleInstant src => exact ⟨_, rfl, .whenLive fun _ => .sampled src⟩
  | levelChangeReport source => exact ⟨_, rfl, .whenLive fun _ => .reportTaken source⟩
  | joinTrigger line => exact ⟨_, rfl, .whenLive fun _ => .triggered _⟩
  | reminderTrigger line => exact ⟨_, rfl, .whenLive fun _ => .triggered _⟩
  | occupancyChange line => exact ⟨_, rfl, .whenLive fun _ => .occupancyTaken line⟩
  | widthTimerExpiry line => exact ⟨_, rfl, .whenLive fun _ => .pulseEnded line⟩
  | gapTimerExpiry line => exact ⟨_, rfl, .whenLive fun _ => .gapEnded line⟩
  | sourceEventPost => exact execSourceEventPost_effect s
  | grantEventPost => exact execGrantEventPost_effect s
  | channelSampleEvent channel req done => exact ⟨_, rfl, .whenLive fun h => .channelSampled channel req done h⟩
  | holdTimerExpiry channel => exact ⟨_, rfl, .whenLive fun h => .ite fun hdue => .holdExpired channel h hdue⟩
  | settleTimerExpiry channel =>
      exact ⟨_, rfl, .whenLive fun h => .ite fun hdue => .settleExpired channel h (Bool.and_eq_true_iff.mp hdue).2⟩
  | framingFault => exact ⟨_, rfl, .whenLive fun _ => .ite fun _ => .received _ .fault⟩
  | lengthError length => exact ⟨_, rfl, .whenLive fun _ => .ite fun _ => .received _ (.character length)⟩
  | gapLimitExpiry => exact ⟨_, rfl, .whenLive fun _ => .ite fun _ => .received _ .gapLimit⟩
  | frameReceived check => exact ⟨_, rfl, .whenLive fun _ => .ite fun _ => .received _ (.character check)⟩
  | goodFrameIndication noticeFirst => exact execGoodFrameIndication_effect s noticeFirst
  | badKind => exact execBadKind_effect s
  | duplicate => exact execDuplicate_effect s
  | status => exact ⟨_, rfl, .execute .status statusOwner_effect⟩
  | bind => exact ⟨_, rfl, .execute .bind bindOwner_effect⟩
  | unbind => exact ⟨_, rfl, .execute .unbind unbindOwner_effect⟩
  | sourceQuery => exact ⟨_, rfl, .execute .sourceQuery sourceQueryOwner_effect⟩
  | maskOn => exact execMaskOn_effect s
  | maskOff => exact execMaskOff_effect s
  | service => exact ⟨_, rfl, .execute .service serviceOwner_effect⟩
  | pendingList => exact ⟨_, rfl, .execute .pendingList pendingListOwner_effect⟩
  | lineSet => exact ⟨_, rfl, .execute .lineSet lineSetOwner_effect⟩
  | lineQuery => exact ⟨_, rfl, .execute .lineQuery lineQueryOwner_effect⟩
  | channelSet => exact ⟨_, rfl, .execute .channelSet channelSetOwner_effect⟩
  | assign => exact ⟨_, rfl, .execute .assign assignOwner_effect⟩
  | channelQuery => exact ⟨_, rfl, .execute .channelQuery channelQueryOwner_effect⟩
  | revoke => exact ⟨_, rfl, .execute .revoke revokeOwner_effect⟩
  | noticeAck => exact ⟨_, rfl, .execute .noticeAck noticeAckOwner_effect⟩
  | linkSet => exact ⟨_, rfl, .execute .linkSet linkSetOwner_effect⟩
  | resync => exact ⟨_, rfl, .execute .resync resyncOwner_effect⟩
  | frameSent =>
      refine ⟨_, rfl, .whenLive fun _ => ?_⟩
      split
      next => exact .none
      next hsending => exact .frameSent hsending
  | retransmitTimerExpiry => exact execRetransmitTimerExpiry_effect s
  | hubClockIncrement => exact ⟨_, rfl, .whenLive fun _ => .tick⟩
  | characterReceived byte => exact ⟨_, rfl, .whenLive fun _ => .ite fun _ => .received _ (.character byte)⟩
  | startBit =>
      refine ⟨_, rfl, .whenLive fun _ => ?_⟩
      split
      next => exact .none
      next => exact .received _ .startBit
  | rxdReturnToMark => exact ⟨_, rfl, .whenLive fun _ => .received _ .mark⟩
  | supplyDip => exact ⟨_, rfl, .supplyDip⟩

/-- A law that every effect keeps and that does not look at the queue of commands is kept by every step. -/
theorem step_keeps {P : State → Prop} (hqueue : ∀ s rest, P s → P (s.withPending rest))
    (heffect : ∀ s t, P s → s.Effect t → P t) {s t : State} (hs : P s) (hstep : step s = .next t) : P t := by
  unfold step at hstep
  split at hstep
  · cases hstep
    exact hs
  next c rest _ =>
    obtain ⟨u, hexec, hu⟩ := exec_effect c (s.withPending rest)
    rw [hexec] at hstep
    cases hstep
    exact heffect _ _ (hqueue s rest hs) hu

end Sys2Proof.Machine
end

section
/-! What the shared operations leave as they were, block by block, and the law of the link. -/

namespace Sys2Proof.Machine

/-! ### Blocks after a shared operation -/

variable (s : State)

@[simp] theorem State.takeFrame_tbu : s.takeFrame.tbu = s.tbu := rfl
@[simp] theorem State.takeFrame_scu : s.takeFrame.scu = s.scu := rfl
@[simp] theorem State.takeFrame_rtu : s.takeFrame.rtu = s.rtu := rfl
@[simp] theorem State.takeFrame_ald : s.takeFrame.ald = s.ald := rfl
@[simp] theorem State.takeFrame_nq : s.takeFrame.nq = s.nq := rfl
@[simp] theorem State.takeFrame_gar : s.takeFrame.gar = s.gar := rfl
@[simp] theorem State.takeFrame_pending : s.takeFrame.pending = s.pending := rfl

/-- A sample instant changes the conditioner records and the reports alone. -/
theorem State.sample_eq (src : Tbl 24 Level) : ∃ conditioners reports, s.sample src = { s with
    scu := { s.scu with conditioners := conditioners }
    rtu := { s.rtu with reports := reports } } := ⟨_, _, rfl⟩

@[simp] theorem State.applyRtu_tbu (x : RtuStep) : (s.applyRtu x).tbu = s.tbu := rfl
@[simp] theorem State.applyRtu_scu (x : RtuStep) : (s.applyRtu x).scu = s.scu := rfl
@[simp] theorem State.applyRtu_rtu (x : RtuStep) : (s.applyRtu x).rtu = x.rtu := rfl
@[simp] theorem State.applyRtu_gar (x : RtuStep) : (s.applyRtu x).gar = s.gar := rfl
@[simp] theorem State.applyRtu_mlk (x : RtuStep) : (s.applyRtu x).mlk = s.mlk := rfl
@[simp] theorem State.applyRtu_pending (x : RtuStep) : (s.applyRtu x).pending = s.pending := rfl

@[simp] theorem State.applyGar_tbu (x : GarStep) : (s.applyGar x).tbu = s.tbu := rfl
@[simp] theorem State.applyGar_scu (x : GarStep) : (s.applyGar x).scu = s.scu := rfl
@[simp] theorem State.applyGar_rtu (x : GarStep) : (s.applyGar x).rtu = s.rtu := rfl
@[simp] theorem State.applyGar_ald (x : GarStep) : (s.applyGar x).ald = s.ald := rfl
@[simp] theorem State.applyGar_gar (x : GarStep) : (s.applyGar x).gar = x.gar := rfl
@[simp] theorem State.applyGar_mlk (x : GarStep) : (s.applyGar x).mlk = s.mlk := rfl
@[simp] theorem State.applyGar_pending (x : GarStep) : (s.applyGar x).pending = s.pending := rfl

@[simp] theorem State.finish_tbu (f : Frame) (a : Answer) : (State.finish f a).tbu = a.state.tbu :=
  State.tbu_startNext _
@[simp] theorem State.finish_scu (f : Frame) (a : Answer) : (State.finish f a).scu = a.state.scu :=
  State.scu_startNext _
@[simp] theorem State.finish_rtu (f : Frame) (a : Answer) : (State.finish f a).rtu = a.state.rtu :=
  State.rtu_startNext _
@[simp] theorem State.finish_ald (f : Frame) (a : Answer) : (State.finish f a).ald = a.state.ald :=
  State.ald_startNext _
@[simp] theorem State.finish_gar (f : Frame) (a : Answer) : (State.finish f a).gar = a.state.gar :=
  State.gar_startNext _
@[simp] theorem State.finish_pending (f : Frame) (a : Answer) : (State.finish f a).pending = a.state.pending :=
  State.pending_startNext _

/-- The end of a request changes the reply queue, the saved reply and the transmitter, and starts no notice. -/
theorem State.finish_eq (f : Frame) (a : Answer) : State.finish f a = { a.state with mlk := { a.state.mlk with
    replies := a.state.mlk.replies ++ [{ frame := replyFrame f a, rateSwitch := a.rateSwitch }]
    saved := some (replyFrame f a)
    tx := if a.state.mlk.tx = .idle then .reply else a.state.mlk.tx } } :=
  State.startNext_of_reply (by simp [Mlk.queueReply])

@[simp] theorem State.finish_nq (f : Frame) (a : Answer) : (State.finish f a).nq = a.state.nq := by
  rw [State.finish_eq]

/-- The entry IN_FLIGHT under a number. -/
def Entry.numbered (number : Byte) (e : Entry) : Entry := { e with delivery := .inFlight number }

/-- A first sending gives the first UNSENT entry the number offered (R154). -/
theorem State.firstSending_nq (e : Entry) : (s.firstSending e).nq =
    { s.nq with queue := updateFirst Entry.isUnsent (Entry.numbered s.offered) s.nq.queue } := rfl

theorem State.startNext_of_sending (h : s.mlk.tx ≠ .idle) : s.startNext = s := by
  unfold State.startNext
  split
  · rfl
  · rfl
  next hidle => exact absurd hidle h

/-- What the rule at a frame boundary can do (R144, R152): nothing, the start of a reply, a resend, or a first sending. -/
theorem State.startNext_cases : s.startNext = s ∨
    s.startNext = { s with mlk := { s.mlk with tx := .reply } } ∧ s.mlk.tx = .idle ∧ s.mlk.replies ≠ [] ∨
    (s.mlk.tx = .idle ∧ s.mlk.replies = [] ∧ s.noticeClaim = true ∧
      ((∃ number rest, s.mlk.sender.roundList = number :: rest ∧ s.startNext = s.resend number rest) ∨
        ∃ e, s.mlk.sender.roundList = [] ∧ s.nq.queue.find? Entry.isUnsent = some e ∧
          s.startNext = s.firstSending e)) := by
  by_cases hidle : s.mlk.tx = .idle
  swap
  · exact .inl (s.startNext_of_sending hidle)
  by_cases hreplies : s.mlk.replies = []
  swap
  · refine .inr (.inl ⟨?_, hidle, hreplies⟩)
    rw [State.startNext_of_reply hreplies, if_pos hidle]
  rw [State.startNext_of_claim hidle hreplies]
  cases hclaim : s.noticeClaim with
  | false => exact .inl rfl
  | true =>
      simp only [if_true]
      unfold State.startNotice
      cases hround : s.mlk.sender.roundList with
      | cons number rest => exact .inr (.inr ⟨hidle, hreplies, trivial, .inl ⟨number, rest, rfl, rfl⟩⟩)
      | nil =>
          cases hfind : s.nq.queue.find? Entry.isUnsent with
          | none => exact .inl rfl
          | some e => exact .inr (.inr ⟨hidle, hreplies, trivial, .inr ⟨e, rfl, rfl, rfl⟩⟩)

/-- Starting a frame changes what is being sent and the sender, and nothing else of the MLK. -/
theorem State.startNext_mlk : ∃ tx sender, s.startNext.mlk = { s.mlk with tx := tx, sender := sender } := by
  obtain ⟨_, tx, _, _, _, h⟩ := s.startNext_frame
  exact ⟨tx, _, congrArg State.mlk h⟩

variable {s}

/-- What taking one post keeps, taking all of them keeps. -/
theorem State.takePosts_keeps {P : State → Prop} (hcleared : P (s.withNq { s.nq with posts := [] }))
    (hpost : ∀ t p, P t → P (t.takePost p)) : P s.takePosts := by
  unfold State.takePosts
  generalize s.withNq { s.nq with posts := [] } = t at hcleared
  induction s.nq.posts generalizing t with
  | nil => exact hcleared
  | cons p rest ih => exact ih _ (hpost t p hcleared)

/-- A frame is taken only while the reply queue has room. -/
theorem State.replies_of_nextFrame {f : Frame} (h : s.nextFrame = some f) : s.mlk.replies.length < 2 := by
  unfold State.nextFrame at h
  split at h
  next hroom => exact hroom
  next => cases h

/-! ### The law of the link, part by part -/

/-- The law of the receiver and the receive buffer (R134, R137, R138). -/
def Mlk.receiveLawful (m : Mlk) : Prop :=
  m.receiver.receiving.lawful = true ∧
  (m.receiver.gapTimer = true → m.receiver.receiving ≠ .hunt ∧ m.receiver.inCharacter = false) ∧
  m.buffer.length ≤ 2 ∧ ∀ b ∈ m.buffer, b.frame.body.length ≤ 40

/-- The rate setting is the last rate switch to come, or the line rate (R149). -/
def Mlk.rateLawful (m : Mlk) : Prop :=
  (m.replies.filterMap Reply.rateSwitch).getLast?.getD m.lineRate = m.settings.rate

/-- The law of the link but for the start of a waiting reply. -/
def Mlk.lawfulButStart (m : Mlk) : Prop :=
  m.receiveLawful ∧ m.replies.length ≤ 2 ∧ (m.tx = .reply → m.replies ≠ []) ∧ m.rateLawful

theorem Mlk.lawful_iff {m : Mlk} : m.lawful ↔ m.lawfulButStart ∧ (m.tx = .idle → m.replies = []) := by
  unfold Mlk.lawful Mlk.lawfulButStart Mlk.receiveLawful Mlk.rateLawful
  tauto

/-- The rule at a frame boundary leaves no reply waiting at an idle transmitter. -/
theorem State.lawful_startNext (h : s.mlk.lawfulButStart) : s.startNext.mlk.lawful := by
  rw [Mlk.lawful_iff]
  obtain ⟨hreceive, hlength, hreply, hrate⟩ := h
  by_cases hidle : s.mlk.tx = .idle
  · by_cases hreplies : s.mlk.replies = []
    · obtain ⟨tx, sender, hmlk⟩ := s.startNext_mlk
      have htx : s.startNext.mlk.tx ≠ .reply := by
        rw [State.startNext_of_claim hidle hreplies]
        unfold State.startNotice State.resend State.firstSending
        repeat' split
        all_goals simp_all
      rw [hmlk] at htx ⊢
      exact ⟨⟨hreceive, hlength, fun h => absurd h htx, hrate⟩, fun _ => hreplies⟩
    · rw [State.startNext_of_reply hreplies]
      simp only [hidle, if_true]
      exact ⟨⟨hreceive, hlength, fun _ => hreplies, hrate⟩, nofun⟩
  · rw [s.startNext_of_sending hidle]
    exact ⟨⟨hreceive, hlength, hreply, hrate⟩, fun h => absurd h hidle⟩

theorem State.lawful_takePost (p : Post) (h : s.mlk.lawful) : (s.takePost p).mlk.lawful :=
  State.lawful_startNext (Mlk.lawful_iff.mp h).1

theorem State.lawful_takePosts (h : s.mlk.lawful) : s.takePosts.mlk.lawful :=
  State.takePosts_keeps (P := fun t => t.mlk.lawful) h fun _ p => State.lawful_takePost p

theorem State.replies_takePosts : s.takePosts.mlk.replies = s.mlk.replies :=
  State.takePosts_keeps (P := fun t => t.mlk.replies = s.mlk.replies) rfl fun t p h =>
    let ⟨_, _, _, _, _, hreplies⟩ := t.takePost_frame p
    hreplies.trans h

/-! ### The receiver -/

theorem Receiving.lawful_take {r : Receiving} (b : Byte) (h : r.lawful = true) : (r.take b).1.lawful = true := by
  cases r with
  | hunt =>
      simp only [Receiving.take]
      split <;> rfl
  | kind => rfl
  | tag k => rfl
  | length k t =>
      simp only [Receiving.take]
      split
      next => rfl
      next hlong =>
        split
        next hzero => simp [Receiving.lawful, hzero]
        next hzero =>
          have : b.toNat ≠ 0 := fun h => hzero (BitVec.eq_of_toNat_eq h)
          simp only [Config.maxBody, not_lt] at hlong
          simp [Receiving.lawful, hlong]
          omega
  | body k t n sofar =>
      simp only [Receiving.lawful, Bool.and_eq_true, decide_eq_true_eq] at h
      simp only [Receiving.take]
      split
      next hlast =>
        simp only [List.length_append, List.length_singleton] at hlast
        simp [Receiving.lawful]
        omega
      next hmore =>
        simp only [List.length_append, List.length_singleton] at hmore
        simp [Receiving.lawful]
        omega
  | checkHigh k t n bytes => exact h
  | checkLow k t n bytes high =>
      simp only [Receiving.take]
      split <;> rfl

/-- A good frame that a lawful receiver completes has a body of at most 40 bytes. -/
theorem Receiving.body_of_good {r : Receiving} {b : Byte} {f : Frame} (h : r.lawful = true)
    (hgood : (r.take b).2 = .good f) : f.body.length ≤ 40 := by
  cases r with
  | checkLow k t n bytes high =>
      simp only [Receiving.lawful, Bool.and_eq_true, decide_eq_true_eq] at h
      simp only [Receiving.take] at hgood
      split at hgood
      next =>
        cases hgood
        simp only
        omega
      next => cases hgood
  | length k t =>
      simp only [Receiving.take] at hgood
      repeat' split at hgood
      all_goals cases hgood
  | body k t n sofar =>
      simp only [Receiving.take] at hgood
      split at hgood <;> cases hgood
  | hunt => cases hgood
  | kind => cases hgood
  | tag k => cases hgood
  | checkHigh k t n bytes => cases hgood

/-- What a received character completes changes the receive buffer and the counters alone. -/
theorem Mlk.rxEvent_eq (m : Mlk) (e : RxEvent) :
    ∃ buffer counters, m.rxEvent e = { m with buffer := buffer, counters := counters } ∧
      (buffer = m.buffer ∨ ∃ f, e = .good f ∧ m.buffer.length < 2 ∧ buffer = m.buffer ++ [Buffered.handed f]) := by
  cases e with
  | none => exact ⟨_, _, rfl, .inl rfl⟩
  | lengthError => exact ⟨_, _, rfl, .inl rfl⟩
  | checkError => exact ⟨_, _, rfl, .inl rfl⟩
  | good f =>
      by_cases hroom : m.buffer.length < 2
      · exact ⟨_, _, Mlk.offer_of_room f hroom, .inr ⟨f, rfl, hroom, rfl⟩⟩
      · exact ⟨_, _, Mlk.offer_of_full f (Nat.not_lt.mp hroom), .inl rfl⟩

/-- A character changes the receiver, the receive buffer and the counters alone. -/
theorem Mlk.receive_spec (m : Mlk) (b : Byte) : ∃ buffer counters,
    m.receive b = { m with
      receiver := { m.receiver with
        receiving := (m.receiver.receiving.take b).1
        gapTimer := (m.receiver.receiving.take b).1.inFrame
        inCharacter := false }
      buffer := buffer
      counters := counters } ∧
    (buffer = m.buffer ∨ ∃ f, (m.receiver.receiving.take b).2 = .good f ∧ m.buffer.length < 2 ∧
      buffer = m.buffer ++ [Buffered.handed f]) := Mlk.rxEvent_eq _ _

theorem Mlk.receiveLawful_receive {m : Mlk} (b : Byte) (h : m.receiveLawful) : (m.receive b).receiveLawful := by
  obtain ⟨hreceiving, -, hlength, hbodies⟩ := h
  obtain ⟨buffer, counters, heq, hbuffer⟩ := m.receive_spec b
  refine (congrArg Mlk.receiveLawful heq).mpr ⟨Receiving.lawful_take b hreceiving, ?_, ?_⟩
  · exact fun h => ⟨by simpa [Receiving.inFrame] using h, rfl⟩
  · rcases hbuffer with rfl | ⟨f, hgood, hroom, rfl⟩
    · exact ⟨hlength, hbodies⟩
    · have hbody := Receiving.body_of_good hreceiving hgood
      refine ⟨by simp; omega, fun x hx => ?_⟩
      rcases List.mem_append.mp hx with hx | hx
      · exact hbodies x hx
      · rw [List.mem_singleton.mp hx]
        exact hbody

theorem Mlk.receiveLawful_abortFrame {m : Mlk} (h : m.receiveLawful) : m.abortFrame.receiveLawful := by
  unfold Mlk.abortFrame
  split
  · exact ⟨rfl, nofun, h.2.2⟩
  · exact h

/-- The receiver's events keep the law of the receiver and leave the transmit side as it is. -/
theorem ReceiverEffect.keeps {m m' : Mlk} (h : m.receiveLawful) (he : ReceiverEffect m m') :
    m'.receiveLawful ∧ m'.replies = m.replies ∧ m'.tx = m.tx ∧ m'.lineRate = m.lineRate ∧
      m'.settings = m.settings := by
  cases he with
  | startBit => exact ⟨⟨h.1, nofun, h.2.2⟩, rfl, rfl, rfl, rfl⟩
  | character byte =>
      obtain ⟨_, _, heq, -⟩ := m.receive_spec byte
      refine ⟨Mlk.receiveLawful_receive byte h, ?_⟩
      rw [heq]
      exact ⟨rfl, rfl, rfl, rfl⟩
  | fault =>
      have habort := Mlk.receiveLawful_abortFrame h
      refine ⟨⟨habort.1, fun hgap => ⟨(habort.2.1 hgap).1, rfl⟩, habort.2.2⟩, ?_⟩
      unfold Mlk.abortFrame Mlk.withReceiver
      split <;> exact ⟨rfl, rfl, rfl, rfl⟩
  | mark => exact ⟨h, rfl, rfl, rfl, rfl⟩
  | gapLimit =>
      refine ⟨Mlk.receiveLawful_abortFrame h, ?_⟩
      unfold Mlk.abortFrame
      split <;> exact ⟨rfl, rfl, rfl, rfl⟩

/-- The receiver's events are no matter of the notice sender. -/
theorem ReceiverEffect.sender_eq {m m' : Mlk} (he : ReceiverEffect m m') : m'.sender = m.sender := by
  cases he with
  | startBit => rfl
  | mark => rfl
  | character byte =>
      obtain ⟨_, _, heq, -⟩ := m.receive_spec byte
      rw [heq]
  | fault =>
      unfold Mlk.abortFrame Mlk.withReceiver
      split <;> rfl
  | gapLimit =>
      unfold Mlk.abortFrame
      split <;> rfl

/-! ### The transmit side -/

/-- The end of a frame is no matter of the notice sender, the receive buffer and the settings. -/
theorem Mlk.endFrame_keeps (m : Mlk) : m.endFrame.sender = m.sender ∧ m.endFrame.buffer = m.buffer ∧
    m.endFrame.settings = m.settings := by
  unfold Mlk.endFrame Mlk.switchRate
  split
  · exact ⟨rfl, rfl, rfl⟩
  · exact ⟨rfl, rfl, rfl⟩
  · simp only
    split <;> exact ⟨rfl, rfl, rfl⟩

theorem Mlk.sender_endFrame (m : Mlk) : m.endFrame.sender = m.sender := m.endFrame_keeps.1

/-- Whichever frame ends, the rate setting stays the last rate switch to come or the line rate. -/
theorem Mlk.lawfulButStart_endFrame {m : Mlk} (h : m.lawfulButStart) : m.endFrame.lawfulButStart := by
  obtain ⟨hreceive, hlength, hreply, hrate⟩ := h
  unfold Mlk.endFrame
  cases htx : m.tx with
  | idle => exact ⟨hreceive, hlength, hreply, hrate⟩
  | notice f => exact ⟨hreceive, hlength, nofun, hrate⟩
  | reply =>
      cases hreplies : m.replies with
      | nil => exact absurd hreplies (hreply htx)
      | cons r rest =>
          have hshorter : rest.length ≤ 2 := by
            rw [hreplies, List.length_cons] at hlength
            omega
          unfold Mlk.rateLawful at hrate
          rw [hreplies] at hrate
          cases hswitch : r.rateSwitch with
          | none =>
              simp only [List.head?_cons, Option.bind_some, hswitch, List.tail_cons]
              rw [List.filterMap_cons_none hswitch] at hrate
              exact ⟨hreceive, hshorter, nofun, hrate⟩
          | some rate =>
              simp only [List.head?_cons, Option.bind_some, hswitch, List.tail_cons]
              rw [List.filterMap_cons_some hswitch, List.getLast?_cons] at hrate
              exact ⟨⟨rfl, nofun, hreceive.2.2⟩, hshorter, nofun, hrate⟩

/-- A reply is queued while there is room, and its rate switch, if it has one, is to the rate setting. -/
theorem State.lawful_startNext_queueReply {m : Mlk} {r : Reply} (hreceive : m.receiveLawful)
    (hroom : m.replies.length < 2) (hrate : r.rateSwitch = none ∧ m.rateLawful ∨ r.rateSwitch = some m.settings.rate) :
    (State.startNext (s.withMlk (m.queueReply r))).mlk.lawful := by
  refine State.lawful_startNext ⟨hreceive, ?_, fun _ => by simp [Mlk.queueReply], ?_⟩
  · simp [Mlk.queueReply]
    omega
  · show ((m.replies ++ [r]).filterMap Reply.rateSwitch).getLast?.getD m.lineRate = m.settings.rate
    rcases hrate with ⟨hnone, hrate⟩ | hsome
    · rw [List.filterMap_append, List.filterMap_cons_none hnone, List.filterMap_nil, List.append_nil]
      exact hrate
    · rw [List.filterMap_append, List.filterMap_cons_some hsome]
      simp

theorem Mlk.receiveLawful_takeFrame {m : Mlk} (h : m.receiveLawful) :
    Mlk.receiveLawful { m with buffer := m.buffer.tail } := by
  obtain ⟨hreceiving, hgap, hlength, hbodies⟩ := h
  refine ⟨hreceiving, hgap, ?_, fun b hb => hbodies b (List.mem_of_mem_tail hb)⟩
  simp only [List.length_tail]
  omega

/-- An owner keeps the receive side and the reply queue, and gives a rate switch exactly when it changes the rate
setting. -/
theorem OwnerEffect.keeps_link {a : Answer} (h : s.mlk.lawful) (ha : OwnerEffect s a) :
    a.state.mlk.receiveLawful ∧ a.state.mlk.replies = s.mlk.replies ∧
      (a.rateSwitch = none ∧ a.state.mlk.rateLawful ∨ a.rateSwitch = some a.state.mlk.settings.rate) := by
  obtain ⟨⟨hreceive, -, -, hrate⟩, -⟩ := Mlk.lawful_iff.mp h
  cases ha with
  | unbound source fields =>
      obtain ⟨⟨hreceive, -, -, hrate⟩, -⟩ := Mlk.lawful_iff.mp (State.lawful_takePosts h)
      exact ⟨hreceive, State.replies_takePosts, .inl ⟨rfl, hrate⟩⟩
  | linkSet settings =>
      refine ⟨hreceive, rfl, ?_⟩
      by_cases hsame : settings.rate = s.mlk.settings.rate
      · refine .inl ⟨if_pos hsame, ?_⟩
        exact Eq.trans hrate hsame.symm
      · exact .inr (if_neg hsame)
  | _ => exact ⟨hreceive, rfl, .inl ⟨rfl, hrate⟩⟩

theorem Mlk.lawful_takeIndication {m : Mlk} (h : m.lawful) : m.takeIndication.lawful := by
  obtain ⟨hreceiving, hgap, hlength, hbodies, hrest⟩ := h
  refine ⟨hreceiving, hgap, by simpa [Mlk.takeIndication] using hlength, fun b hb => ?_, hrest⟩
  have key : ∀ l : List Buffered, b ∈ updateFirst Buffered.indication (fun b => { b with indication := false }) l →
      ∃ x ∈ l, x.frame = b.frame := by
    intro l hb
    by_cases hany : l.any Buffered.indication = true
    · obtain ⟨front, x, back, rfl, hx, hf⟩ := exists_first hany
      rw [updateFirst_of_split hx hf] at hb
      rcases List.mem_append.mp hb with hb | hb
      · exact ⟨b, by simp [hb], rfl⟩
      · rcases List.mem_cons.mp hb with rfl | hb
        · exact ⟨x, by simp, rfl⟩
        · exact ⟨b, by simp [hb], rfl⟩
    · rw [updateFirst_of_none (by simpa using hany)] at hb
      exact ⟨b, hb, rfl⟩
  obtain ⟨x, hx, hframe⟩ := key _ hb
  rw [← hframe]
  exact hbodies x hx

theorem Mlk.lawful_initial (settings : LinkSettings) : (Mlk.initial settings).lawful :=
  ⟨rfl, nofun, Nat.zero_le _, nofun, Nat.zero_le _, fun _ => rfl, nofun, rfl⟩

theorem State.lawful_link_of_startNext (h : s.mlk.lawful) : s.startNext.mlk.lawful :=
  State.lawful_startNext (Mlk.lawful_iff.mp h).1

theorem State.Effect.keeps_link {s t : State} (h : s.mlk.lawful) (he : s.Effect t) : t.mlk.lawful := by
  have hbutStart := (Mlk.lawful_iff.mp h).1
  obtain ⟨hreceive, hlength, hreply, hrate⟩ := hbutStart
  cases he with
  | powerOnHigh req => exact State.lawful_link_of_startNext (Mlk.lawful_initial _)
  | powerOnLow req => exact Mlk.lawful_initial _
  | supplyDip => exact Mlk.lawful_initial _
  | enterReset => exact Mlk.lawful_initial _
  | leaveReset req => exact State.lawful_link_of_startNext h
  | postTaken p rest => exact State.lawful_takePost p h
  | received m hm =>
      obtain ⟨hm, hreplies, htx, hline, hsettings⟩ := hm.keeps hreceive
      rw [Mlk.lawful_iff] at h ⊢
      unfold Mlk.lawfulButStart Mlk.rateLawful at h ⊢
      simp only [State.withMlk_mlk, hreplies, htx, hline, hsettings]
      exact ⟨⟨hm, h.1.2⟩, h.2⟩
  | indicationTaken => exact Mlk.lawful_takeIndication h
  | recovered => exact Mlk.lawful_takeIndication h
  | recoveredStarting => exact State.lawful_link_of_startNext (Mlk.lawful_takeIndication h)
  | badKind f hnext reply =>
      exact State.lawful_startNext_queueReply (Mlk.receiveLawful_takeFrame hreceive) (State.replies_of_nextFrame (s := s) hnext)
        (.inl ⟨rfl, hrate⟩)
  | duplicate f hnext hrequest saved =>
      exact State.lawful_startNext_queueReply (Mlk.receiveLawful_takeFrame hreceive) (State.replies_of_nextFrame (s := s) hnext)
        (.inl ⟨rfl, hrate⟩)
  | request kind f a hlive hnext hkind howner =>
      have htaken : s.takeFrame.mlk.lawful :=
        Mlk.lawful_iff.mpr ⟨⟨Mlk.receiveLawful_takeFrame hreceive, hlength, hreply, hrate⟩, (Mlk.lawful_iff.mp h).2⟩
      obtain ⟨hreceive, hreplies, hrate⟩ := howner.keeps_link htaken
      exact State.lawful_startNext_queueReply hreceive (hreplies ▸ State.replies_of_nextFrame (s := s) hnext) hrate
  | frameSent => exact State.lawful_startNext (Mlk.lawfulButStart_endFrame (Mlk.lawful_iff.mp h).1)
  | roundBegun => exact State.lawful_link_of_startNext h
  | stalled =>
      obtain ⟨hreceiving, hgap, hbuffer, hbodies, hrest⟩ := h
      refine ⟨hreceiving, hgap, (List.length_map _).trans_le hbuffer, fun b hb => ?_, hrest⟩
      obtain ⟨x, hx, rfl⟩ := List.mem_map.mp hb
      exact hbodies x hx
  | _ => exact h

/-- Settles O59: case by case over what a command can do; whatever starts a frame leaves no reply waiting at an idle
transmitter (`State.lawful_startNext`), and LINK_SET alone changes the rate setting, with the switch to it in its reply. -/
theorem stepKeepsLinkLaw : Obligations.StepKeepsLinkLaw := by
  intro s t hs hstep
  exact step_keeps (P := fun s => s.mlk.lawful) (fun _ _ h => h) (fun _ _ => State.Effect.keeps_link) hs hstep

end Sys2Proof.Machine
end

section
/-! The law of the attention lines: one line under each of its events, an event at the RTU, and every step. -/

namespace Sys2Proof.Machine

/-! ### One line -/

/-- A LEVEL-mode line follows the occupancy of its set (R61). -/
def LineRecord.follows (x : LineRecord) (set : List Source) : Prop :=
  x.settings.mode = .level → (x.output = .asserted ↔ x.settings.enable = true ∧ set ≠ [])

theorem LineRecord.lawful_trigger {x : LineRecord} (h : x.lawful) : x.trigger.lawful := by
  by_cases heeded : x.settings.enable = false ∨ x.settings.mode = .level
  · rwa [LineRecord.trigger_of_unheeded heeded]
  obtain ⟨henable, hmode⟩ := not_or.mp heeded
  have henable : x.settings.enable = true := by simpa using henable
  have hpulse : x.settings.mode = .pulse := by
    cases hm : x.settings.mode with
    | level => exact absurd hm hmode
    | pulse => rfl
  obtain ⟨hwidth, hgap, hpair, hoff, hlevel, howed, hon, houtput⟩ := h
  by_cases hquiet : x.phase = .quiet
  · rw [LineRecord.trigger_of_quiet henable hpulse hquiet]
    simp_all [LineRecord.lawful]
  · rw [LineRecord.trigger_of_not_quiet henable hpulse hquiet]
    exact ⟨hwidth, hgap, hpair, hoff, hlevel, fun h => absurd h hquiet, hon, houtput⟩

theorem LineRecord.lawful_endPulse {x : LineRecord} (h : x.lawful) : x.endPulse.lawful := by
  obtain ⟨hwidth, hgap, hpair, hoff, hlevel, howed, hon, houtput⟩ := h
  unfold LineRecord.endPulse
  cases hphase : x.phase with
  | quiet => exact ⟨hwidth, hgap, hpair, hoff, hlevel, howed, hon, houtput⟩
  | gap length => exact ⟨hwidth, hgap, hpair, hoff, hlevel, howed, hon, houtput⟩
  | pulse length => simp_all [LineRecord.lawful]

theorem LineRecord.lawful_endGap {x : LineRecord} (h : x.lawful) (nonempty : Bool) : (x.endGap nonempty).lawful := by
  cases hphase : x.phase with
  | quiet => simpa [LineRecord.endGap, hphase] using h
  | pulse length => simpa [LineRecord.endGap, hphase] using h
  | gap length =>
      obtain ⟨hwidth, hgap, hpair, hoff, hlevel, howed, hon, houtput⟩ := h
      have henable : x.settings.enable = true := by
        by_contra hdisabled
        have hquiet := (hoff (by simpa using hdisabled)).1
        rw [hphase] at hquiet
        cases hquiet
      have hmode : x.settings.mode = .pulse := by
        cases hm : x.settings.mode with
        | pulse => rfl
        | level =>
            have hquiet := hlevel hm
            rw [hphase] at hquiet
            cases hquiet
      obtain ⟨hasserted, hreleased⟩ := houtput henable hmode
      have hout : x.output = .released := by
        cases hx : x.output with
        | off => exact absurd hx (hon henable)
        | released => rfl
        | asserted => simp [hphase, hx] at hasserted
      rw [LineRecord.endGap_of_gap hphase]
      split <;> simp_all [LineRecord.lawful]

theorem LineSettings.restingOutput_of_disabled {x : LineSettings} (h : x.enable = false) (nonempty : Bool) :
    x.restingOutput nonempty = .off := by
  simp [LineSettings.restingOutput, h]

theorem LineSettings.restingOutput_ne_off {x : LineSettings} (h : x.enable = true) (nonempty : Bool) :
    x.restingOutput nonempty ≠ .off := by
  cases hmode : x.mode <;> cases nonempty <;> simp [LineSettings.restingOutput, h, hmode]

theorem LineRecord.lawful_occupancy {x : LineRecord} (h : x.lawful) (nonempty : Bool) :
    (x.occupancy nonempty).lawful := by
  obtain ⟨hwidth, hgap, hpair, hoff, hlevel, howed, hon, houtput⟩ := h
  unfold LineRecord.occupancy
  cases hmode : x.settings.mode with
  | pulse => exact ⟨hwidth, hgap, hpair, hoff, hlevel, howed, hon, houtput⟩
  | level =>
      refine ⟨hwidth, hgap, hpair, fun h => ⟨(hoff h).1, LineSettings.restingOutput_of_disabled h _⟩, hlevel, howed,
        fun h => LineSettings.restingOutput_ne_off h _, fun _ h => ?_⟩
      cases hmode.symm.trans h

/-- The output at rest makes a lawful line of valid settings. -/
theorem LineRecord.lawful_rest {x : LineSettings} (hwidth : x.width ≠ 0) (hgap : x.gap ≠ 0)
    (hpair : ¬ (x.drive = .openDrain ∧ x.polarity = .activeHigh)) (nonempty : Bool) :
    LineRecord.lawful { settings := x, phase := .quiet, owed := false, output := x.restingOutput nonempty } := by
  refine ⟨hwidth, hgap, hpair, fun h => ⟨rfl, LineSettings.restingOutput_of_disabled h _⟩, fun _ => rfl, fun _ => rfl,
    fun h => LineSettings.restingOutput_ne_off h _, fun h hm => ?_⟩
  simp only at h hm
  simp [LineSettings.restingOutput, h, hm]

theorem LineRecord.lawful_set {x : LineSettings} (hwidth : x.width ≠ 0) (hgap : x.gap ≠ 0)
    (hpair : ¬ (x.drive = .openDrain ∧ x.polarity = .activeHigh)) (nonempty : Bool) :
    (LineRecord.set x nonempty).lawful := by
  have hrest := LineRecord.lawful_rest hwidth hgap hpair nonempty
  cases nonempty with
  | false => exact hrest
  | true => exact LineRecord.lawful_trigger hrest

/-- In LEVEL mode the triggers and the timers leave a lawful line as it is. -/
theorem LineRecord.unchanged_of_level {x : LineRecord} (h : x.lawful) (hmode : x.settings.mode = .level)
    (nonempty : Bool) : x.trigger = x ∧ x.endPulse = x ∧ x.endGap nonempty = x := by
  have hquiet : x.phase = .quiet := h.2.2.2.2.1 hmode
  exact ⟨LineRecord.trigger_of_unheeded (.inr hmode), by simp [LineRecord.endPulse, hquiet],
    by simp [LineRecord.endGap, hquiet]⟩

@[simp] theorem LineRecord.settings_trigger (x : LineRecord) : x.trigger.settings = x.settings := by
  unfold LineRecord.trigger
  repeat' split
  all_goals rfl

@[simp] theorem LineRecord.settings_endPulse (x : LineRecord) : x.endPulse.settings = x.settings := by
  unfold LineRecord.endPulse
  split <;> rfl

@[simp] theorem LineRecord.settings_endGap (x : LineRecord) (nonempty : Bool) :
    (x.endGap nonempty).settings = x.settings := by
  unfold LineRecord.endGap
  repeat' split
  all_goals rfl

/-- The resting output of a LEVEL-mode line follows the occupancy it was evaluated with. -/
theorem LineRecord.follows_rest {x : LineRecord} {r : Rtu} {l : Line}
    (h : x.output = x.settings.restingOutput (r.nonempty l)) : x.follows (r.sets.read l) := by
  intro hmode
  rw [h, Rtu.nonempty_eq]
  by_cases henable : x.settings.enable = true <;> by_cases hset : r.sets.read l = [] <;>
    simp [LineSettings.restingOutput, hmode, henable, hset]

theorem LineRecord.follows_occupancy (x : LineRecord) (r : Rtu) (l : Line) :
    (x.occupancy (r.nonempty l)).follows (r.sets.read l) := by
  cases hm : x.settings.mode with
  | level =>
      refine LineRecord.follows_rest ?_
      simp [LineRecord.occupancy, hm]
  | pulse =>
      intro h
      simp [LineRecord.occupancy, hm] at h

theorem LineRecord.follows_set (x : LineSettings) (r : Rtu) (l : Line) :
    (LineRecord.set x (r.nonempty l)).follows (r.sets.read l) := by
  have hfresh : LineRecord.follows
      { settings := x, phase := .quiet, owed := false, output := x.restingOutput (r.nonempty l) } (r.sets.read l) :=
    LineRecord.follows_rest rfl
  unfold LineRecord.set
  simp only
  split
  · intro hmode
    rw [LineRecord.settings_trigger] at hmode
    rw [LineRecord.trigger_of_unheeded (.inr hmode)]
    exact hfresh hmode
  · exact hfresh

/-! ### The lines of the state -/

variable {s t : State}

theorem State.linesLawful_iff : s.linesLawful ↔ ∀ l : Line, (s.ald.lines.read l).lawful ∧
    (l ∉ s.ald.occupancy → (s.ald.lines.read l).follows (s.rtu.sets.read l)) := Iff.rfl

/-- The law of the lines looks at the ALD and the pending sets alone. -/
theorem State.linesLawful_of_same (h : s.linesLawful) (hald : t.ald = s.ald) (hsets : t.rtu.sets = s.rtu.sets) :
    t.linesLawful := by
  rw [State.linesLawful_iff] at h ⊢
  rw [hald, hsets]
  exact h

theorem State.linesLawful_startNext (h : s.linesLawful) : s.startNext.linesLawful :=
  State.linesLawful_of_same h (State.ald_startNext s) (congrArg Rtu.sets (State.rtu_startNext s))

/-- One line is replaced by a lawful one, which follows its set unless a change of occupancy still waits; other lines may
have no less waiting than before. -/
theorem State.linesLawful_withAld {a : Ald} {l : Line} {x : LineRecord} (h : s.linesLawful)
    (hlines : a.lines = s.ald.lines.write l x) (hx : x.lawful)
    (hfollows : l ∉ a.occupancy → x.follows (s.rtu.sets.read l))
    (hwaiting : ∀ m, m ≠ l → m ∈ s.ald.occupancy → m ∈ a.occupancy) : (s.withAld a).linesLawful := by
  rw [State.linesLawful_iff] at h ⊢
  intro m
  simp only [State.withAld_ald, State.withAld_rtu, hlines, Tbl.read_write]
  by_cases hm : m = l
  · subst hm
    simp only [if_true]
    exact ⟨hx, hfollows⟩
  · simp only [hm, if_false]
    exact ⟨(h m).1, fun hnot => (h m).2 fun hin => hnot (hwaiting m hm hin)⟩

/-- A line takes an event that leaves a LEVEL-mode line as it is. -/
theorem State.linesLawful_update {a : Ald} {l : Line} {f : LineRecord → LineRecord} (h : s.linesLawful)
    (hlines : a.lines = s.ald.lines.write l (f (s.ald.lines.read l))) (hoccupancy : a.occupancy = s.ald.occupancy)
    (hsettings : ∀ x, (f x).settings = x.settings) (hlawful : ∀ x : LineRecord, x.lawful → (f x).lawful)
    (hlevel : ∀ x : LineRecord, x.lawful → x.settings.mode = .level → f x = x) : (s.withAld a).linesLawful := by
  obtain ⟨hline, hfollows⟩ := State.linesLawful_iff.mp h l
  refine State.linesLawful_withAld h hlines (hlawful _ hline) (fun hnot hmode => ?_) fun _ _ hm => hoccupancy ▸ hm
  rw [hsettings] at hmode
  rw [hlevel _ hline hmode]
  exact hfollows (hoccupancy ▸ hnot) hmode

/-- Whatever happens to the pending sets, each change between empty and nonempty waits at its line. -/
theorem State.linesLawful_applyRtu (x : RtuStep) (h : s.linesLawful) : (s.applyRtu x).linesLawful := by
  rw [State.linesLawful_iff] at h ⊢
  intro l
  refine ⟨(h l).1, fun hnot hmode => ?_⟩
  simp only [State.applyRtu, List.mem_append, not_or] at hnot
  obtain ⟨hwaiting, hchanged⟩ := hnot
  have hsame : s.rtu.nonempty l = x.rtu.nonempty l := by simpa [Rtu.occupancyChanges] using hchanged
  simp only [Rtu.nonempty_eq, ne_eq, decide_eq_decide, not_iff_not] at hsame
  have hbefore := (h l).2 hwaiting hmode
  rw [ne_eq, hsame] at hbefore
  exact hbefore

theorem State.linesLawful_takePosts (h : s.linesLawful) : s.takePosts.linesLawful :=
  State.takePosts_keeps (P := State.linesLawful) h fun t p ht => by
    refine State.linesLawful_of_same ht (t.takePost_frame p).2.2.2.1 ?_
    simp [State.takePost]

/-- Lines whose sets are all empty, each at rest. -/
theorem State.linesLawful_of_rest (hline : ∀ l, (s.ald.lines.read l).lawful)
    (hrest : ∀ l, (s.ald.lines.read l).output = (s.ald.lines.read l).settings.restingOutput false)
    (hsets : ∀ l, s.rtu.sets.read l = []) : s.linesLawful := by
  refine State.linesLawful_iff.mpr fun l => ⟨hline l, fun _ => LineRecord.follows_rest (r := s.rtu) ?_⟩
  rw [hrest l, Rtu.nonempty_eq, hsets l]
  rfl

theorem State.linesLawful_powerOn (mode : Mode) (req : Pins) : (State.powerOn mode req).linesLawful := by
  refine State.linesLawful_of_rest (fun l => ?_) (fun l => ?_) (fun l => ?_) <;>
    simp only [State.powerOn, Ald.initial, Rtu.initial, Tbl.read_fill]
  · exact LineRecord.lawful_rest (x := LineSettings.default) (by decide) (by decide) (by decide) false
  · rfl

theorem State.linesLawful_enterReset (h : s.linesLawful) : s.enterReset.linesLawful := by
  refine State.linesLawful_of_rest (fun l => ?_) (fun l => ?_) (fun l => ?_) <;>
    simp only [State.enterReset, Ald.cleared, Rtu.cleared, Tbl.read_build, Tbl.read_fill]
  · obtain ⟨⟨hwidth, hgap, hpair, -⟩, -⟩ := h l
    exact LineRecord.lawful_rest hwidth hgap hpair false
  · rfl

theorem State.linesLawful_takeTrigger (trigger : Trigger) (h : s.linesLawful) :
    (s.withAld (s.ald.takeTrigger trigger)).linesLawful := by
  unfold Ald.takeTrigger
  split
  · exact State.linesLawful_update h rfl rfl (fun x => x.settings_trigger) (fun _ => LineRecord.lawful_trigger)
      fun x hx hmode => (x.unchanged_of_level hx hmode false).1
  · exact h

theorem State.linesLawful_takeOccupancy (l : Line) (h : s.linesLawful) :
    (s.withAld (s.ald.takeOccupancy l (s.rtu.nonempty l))).linesLawful := by
  unfold Ald.takeOccupancy
  split
  · exact State.linesLawful_withAld h rfl (LineRecord.lawful_occupancy (h l).1 _)
      (fun _ => LineRecord.follows_occupancy (s.ald.lines.read l) s.rtu l) fun m hm hin => (List.mem_erase_of_ne hm).mpr hin
  · exact h

theorem OwnerEffect.keeps_lines {a : Answer} (h : s.linesLawful) (ha : OwnerEffect s a) : a.state.linesLawful := by
  cases ha with
  | bound f fields => exact State.linesLawful_applyRtu _ (State.linesLawful_of_same h rfl rfl)
  | unbound source fields =>
      exact State.linesLawful_of_same
        (State.linesLawful_applyRtu _ (State.linesLawful_of_same (State.linesLawful_takePosts h) rfl rfl)) rfl rfl
  | masked source fields => exact State.linesLawful_applyRtu _ h
  | unmasked source fields => exact State.linesLawful_applyRtu _ h
  | served source fields => exact State.linesLawful_applyRtu _ h
  | lineSet line settings fields hwidth hgap hpair =>
      exact State.linesLawful_withAld h rfl (LineRecord.lawful_set hwidth hgap hpair _)
        (fun _ => LineRecord.follows_set settings s.rtu line) fun _ _ hm => hm
  | _ => exact State.linesLawful_of_same h rfl rfl

theorem State.Effect.keeps_lines (h : s.linesLawful) (he : s.Effect t) : t.linesLawful := by
  cases he with
  | powerOnHigh req =>
      exact State.linesLawful_startNext (State.linesLawful_of_same (State.linesLawful_powerOn .running req) rfl rfl)
  | powerOnLow req => exact State.linesLawful_of_same (State.linesLawful_powerOn .resetLow req) rfl rfl
  | supplyDip => exact State.linesLawful_of_same (State.linesLawful_powerOn .powerOnReset (Tbl.fill 12 .low)) rfl rfl
  | enterReset => exact State.linesLawful_enterReset h
  | reportTaken source => exact State.linesLawful_applyRtu _ h
  | triggered trigger => exact State.linesLawful_takeTrigger trigger h
  | occupancyTaken line => exact State.linesLawful_takeOccupancy line h
  | pulseEnded line =>
      exact State.linesLawful_update h rfl rfl (fun x => x.settings_endPulse) (fun _ => LineRecord.lawful_endPulse)
        fun x hx hmode => (x.unchanged_of_level hx hmode false).2.1
  | gapEnded line =>
      exact State.linesLawful_update h rfl rfl (fun x => x.settings_endGap _)
        (fun _ hx => LineRecord.lawful_endGap hx _) fun x hx hmode => (x.unchanged_of_level hx hmode _).2.2
  | request kind f a hlive hnext hkind howner =>
      have htaken : s.takeFrame.linesLawful := State.linesLawful_of_same h rfl rfl
      exact State.linesLawful_of_same (howner.keeps_lines htaken) (State.finish_ald f a)
        (congrArg Rtu.sets (State.finish_rtu f a))
  | leaveReset | postTaken | recoveredStarting | badKind | duplicate | frameSent | roundBegun =>
      exact State.linesLawful_startNext (State.linesLawful_of_same h rfl rfl)
  | sampled src =>
      obtain ⟨_, _, heq⟩ := s.sample_eq src
      rw [heq]
      exact State.linesLawful_of_same h rfl rfl
  | _ => exact State.linesLawful_of_same h rfl rfl

/-- Settles O55: case by case over what a command can do; an event at the RTU leaves a change of occupancy waiting at every
line whose set became empty or nonempty, and the taking of the change makes the line follow its set. -/
theorem stepKeepsLineLaw : Obligations.StepKeepsLineLaw := by
  intro s t hs hstep
  exact step_keeps (P := State.linesLawful) (fun _ _ h => h) (fun _ _ => State.Effect.keeps_lines) hs hstep

end Sys2Proof.Machine
end

section
/-! The Grant Arbiter, transition by transition: what a grant makes of each record, and the law of one channel under a join,
a withdrawal, a grant, an end of a grant and a recovery (R96 to R98, R113 to R124). -/

namespace Sys2Proof.Machine

/-! ### What a grant makes of each record (R115, R116, R118) -/

/-- Members of a wait queue are aged at a grant under PRIORITY with an age limit above 0 (R115). -/
def ChannelSettings.ages (x : ChannelSettings) : Prop := x.policy = .priority ∧ 0 < x.ageLimit.toNat

/-- The channel record right after a grant, with the queue that is left (R118). -/
def ChannelRecord.granted (x : ChannelRecord) (q : Requester) (queue : List Requester) : ChannelRecord :=
  { x with
    phase := .held q
    queue := queue
    holdTimer := if 0 < x.settings.holdLimit.toNat then .start x.settings.holdLimit.toNat else .stopped
    grants := satInc x.grants }

/-- The arbiter after a grant, before the rest of the queue is aged. -/
def Gar.taken (g : Gar) (c : Channel) (q : Requester) (rest : List Requester) (now : Time) : Gar :=
  (g.setState q (.granted 0 now)).setChannel c ((g.channel c).granted q rest)

theorem Gar.gar_grant (g : Gar) (c : Channel) (q : Requester) (rest : List Requester) (now : Time) :
    (g.grant c q rest now).gar = (g.taken c q rest now).age c := rfl

theorem Gar.channel_taken_same (g : Gar) (c : Channel) (q : Requester) (rest : List Requester) (now : Time) :
    (g.taken c q rest now).channel c = (g.channel c).granted q rest := Gar.channel_setChannel_same ..

theorem Gar.channel_taken_of_ne (g : Gar) {c d : Channel} (q : Requester) (rest : List Requester) (now : Time)
    (h : d ≠ c) : (g.taken c q rest now).channel d = g.channel d :=
  (Gar.channel_setChannel ..).trans (if_neg h)

theorem Gar.requester_taken_same (g : Gar) (c : Channel) (q : Requester) (rest : List Requester) (now : Time) :
    (g.taken c q rest now).requester q = { g.requester q with state := .granted 0 now } :=
  Gar.requester_setState_same ..

theorem Gar.requester_taken_of_ne (g : Gar) (c : Channel) {q m : Requester} (rest : List Requester) (now : Time)
    (h : m ≠ q) : (g.taken c q rest now).requester m = g.requester m :=
  Gar.requester_setState_of_ne g _ h

theorem Gar.age_of_not_ages {g : Gar} {c : Channel} (h : ¬ (g.channel c).settings.ages) : g.age c = g := if_neg h

/-- The queue after aging: the members promoted before, those promoted now, and the others (R116). -/
def agedQueue (before after : Requester → Bool) (queue : List Requester) : List Requester :=
  queue.filter before ++ queue.filter (fun m => !before m && after m) ++ queue.filter fun m => !after m

/-- The member is promoted once it has been passed over under this age limit. -/
def Gar.promotedAfter (g : Gar) (limit : Nat) (m : Requester) : Bool := ((g.requester m).state.pass limit).isPromoted

theorem Gar.age_of_ages {g : Gar} {c : Channel} (h : (g.channel c).settings.ages) : g.age c =
    { requesters := Tbl.build fun m =>
        if m ∈ (g.channel c).queue then
          { g.requester m with state := (g.requester m).state.pass (g.channel c).settings.ageLimit.toNat }
        else g.requester m
      channels := g.channels.write c { g.channel c with
        queue := agedQueue (fun m => (g.requester m).state.isPromoted)
          (g.promotedAfter (g.channel c).settings.ageLimit.toNat) (g.channel c).queue } } := if_pos h

theorem Gar.requester_age {g : Gar} {c : Channel} (h : (g.channel c).settings.ages) (m : Requester) :
    (g.age c).requester m =
      if m ∈ (g.channel c).queue then
        { g.requester m with state := (g.requester m).state.pass (g.channel c).settings.ageLimit.toNat }
      else g.requester m := by
  rw [Gar.age_of_ages h]
  exact Tbl.read_build ..

theorem Gar.channel_age_same {g : Gar} {c : Channel} (h : (g.channel c).settings.ages) :
    (g.age c).channel c = { g.channel c with
      queue := agedQueue (fun m => (g.requester m).state.isPromoted)
        (g.promotedAfter (g.channel c).settings.ageLimit.toNat) (g.channel c).queue } := by
  rw [Gar.age_of_ages h]
  exact Tbl.read_write_same ..

theorem Gar.channel_age_of_ne (g : Gar) {c d : Channel} (hd : d ≠ c) : (g.age c).channel d = g.channel d := by
  by_cases h : (g.channel c).settings.ages
  · rw [Gar.age_of_ages h]
    exact Tbl.read_write_of_ne _ _ hd
  · rw [Gar.age_of_not_ages h]

/-! ### A state passed over (R115) -/

@[simp] theorem RequesterState.isWaiting_pass (x : RequesterState) (limit : Nat) :
    (x.pass limit).isWaiting = x.isWaiting := by
  cases x with
  | waiting passes promoted => cases promoted <;> rfl
  | _ => rfl

@[simp] theorem RequesterState.isGranted_pass (x : RequesterState) (limit : Nat) :
    (x.pass limit).isGranted = x.isGranted := by
  cases x with
  | waiting passes promoted => cases promoted <;> rfl
  | _ => rfl

theorem RequesterState.pass_of_not_waiting {x : RequesterState} (h : x.isWaiting = false) (limit : Nat) :
    x.pass limit = x := by
  cases x with
  | waiting passes promoted => cases h
  | _ => rfl

theorem RequesterState.isPromoted_pass {x : RequesterState} (h : x.isPromoted = true) (limit : Nat) :
    (x.pass limit).isPromoted = true := by
  cases x with
  | waiting passes promoted => cases promoted <;> simp_all [RequesterState.isPromoted, RequesterState.pass]
  | _ => cases h

/-- One that is not promoted has its pass count raised, and is promoted when it reaches the limit. -/
theorem RequesterState.pass_of_unpromoted {x : RequesterState} (hw : x.isWaiting = true) (h : x.isPromoted = false)
    (limit : Nat) : x.pass limit = .waiting (x.passes + 1) (decide (limit ≤ x.passes + 1)) := by
  cases x with
  | waiting passes promoted =>
      cases promoted with
      | true => cases h
      | false => rfl
  | _ => cases hw

theorem RequesterState.pass_of_promoted {x : RequesterState} (h : x.isPromoted = true) (limit : Nat) :
    x.pass limit = x := by
  cases x with
  | waiting passes promoted =>
      cases promoted with
      | true => rfl
      | false => cases h
  | _ => cases h

theorem mem_agedQueue (before after : Requester → Bool) (queue : List Requester) (m : Requester) :
    m ∈ agedQueue before after queue ↔ m ∈ queue := by
  simp only [agedQueue, List.mem_append, List.mem_filter, Bool.and_eq_true, Bool.not_eq_eq_eq_not, Bool.not_true]
  constructor
  · tauto
  · intro hm
    by_cases hb : before m = true
    · exact .inl (.inl ⟨hm, hb⟩)
    · by_cases ha : after m = true
      · exact .inl (.inr ⟨hm, by simpa using hb, ha⟩)
      · exact .inr ⟨hm, by simpa using ha⟩

theorem nodup_agedQueue {before after : Requester → Bool} {queue : List Requester} (hq : queue.Nodup)
    (h : ∀ m ∈ queue, before m = true → after m = true) : (agedQueue before after queue).Nodup := by
  unfold agedQueue
  refine ((hq.filter _).append (hq.filter _) ?_).append (hq.filter _) ?_
  · intro m h1 h2
    simp_all [List.mem_filter]
  · intro m h1 h2
    simp only [List.mem_append, List.mem_filter, Bool.and_eq_true, Bool.not_eq_eq_eq_not, Bool.not_true] at h1 h2
    rcases h1 with ⟨hm, hb⟩ | ⟨-, -, ha⟩
    · rw [h m hm hb] at h2
      exact absurd h2.2 (by simp)
    · rw [ha] at h2
      exact absurd h2.2 (by simp)

/-! ### The law of a channel, part by part -/

/-- The law of the settings, holder, phase and timers of a channel but for the grant rule. -/
def Gar.phaseSound (g : Gar) (c : Channel) : Prop :=
  (g.channel c).settings.settleLimit ≠ 0 ∧ (g.channel c).settings.ageLimit.toNat ≤ 15 ∧
  (∀ q : Requester, (g.channel c).phase = .held q ↔
    (g.requester q).assigned = some c ∧ (g.requester q).state.isGranted = true) ∧
  (∀ q : Requester, (g.channel c).phase = .settling (some q) →
    (g.requester q).assigned = some c ∧ (g.requester q).isBlocked = true) ∧
  ((g.channel c).holdTimer ≠ .stopped ↔
    (g.channel c).phase.code = 1 ∧ 0 < (g.channel c).settings.holdLimit.toNat) ∧
  ((g.channel c).settleTimer ≠ .stopped ↔ (g.channel c).phase.code = 2)

/-- The law of a channel but for the grant rule. -/
def Gar.channelSound (g : Gar) (c : Channel) : Prop := g.queueLawful c ∧ g.phaseSound c

/-- The grant rule has been applied: the channel does not stand open and IDLE with a nonempty queue (R117). -/
def Gar.ruleApplied (g : Gar) (c : Channel) : Prop :=
  ¬ ((g.channel c).settings.isOpen = true ∧ (g.channel c).phase = .idle ∧ (g.channel c).queue ≠ [])

/-- The law of every channel but for the grant rule. -/
def Gar.sound (g : Gar) : Prop := ∀ c, g.channelSound c

/-- The law of the arbiter while the grant rule is still to be applied at one channel. -/
def Gar.lawfulBut (g : Gar) (c : Channel) : Prop :=
  (∀ q, (g.requester q).lawful) ∧ g.sound ∧ ∀ d, d ≠ c → g.ruleApplied d

theorem Gar.lawful_iff {g : Gar} : g.lawful ↔ (∀ q, (g.requester q).lawful) ∧ g.sound ∧ ∀ c, g.ruleApplied c := by
  unfold Gar.lawful Gar.sound Gar.channelSound Gar.phaseSound Gar.ruleApplied Gar.phaseLawful
  constructor
  · rintro ⟨hr, hq, hp⟩
    refine ⟨hr, fun c => ⟨hq c, ?_⟩, fun c => (hp c).2.2.2.2.2.2⟩
    obtain ⟨h1, h2, h3, h4, h5, h6, -⟩ := hp c
    exact ⟨h1, h2, h3, h4, h5, h6⟩
  · rintro ⟨hr, hs, hg⟩
    refine ⟨hr, fun c => (hs c).1, fun c => ?_⟩
    obtain ⟨h1, h2, h3, h4, h5, h6⟩ := (hs c).2
    exact ⟨h1, h2, h3, h4, h5, h6, hg c⟩

theorem Gar.lawfulBut_of_lawful {g : Gar} (h : g.lawful) (c : Channel) : g.lawfulBut c :=
  let ⟨hr, hs, hg⟩ := Gar.lawful_iff.mp h
  ⟨hr, hs, fun d _ => hg d⟩

/-- The requester takes no part in arbitration: it is DETACHED or IDLE. -/
def RequesterRecord.isFree (r : RequesterRecord) : Prop := r.state = .detached ∨ r.state = .idle

theorem RequesterRecord.flags_of_isFree {r : RequesterRecord} (h : r.isFree) :
    r.state.isWaiting = false ∧ r.state.isGranted = false ∧ r.isBlocked = false := by
  rcases h with h | h <;> simp [RequesterRecord.isBlocked, h, RequesterState.isWaiting, RequesterState.isGranted]

/-- Two records that arbitration does not tell apart. -/
def RequesterRecord.sameStanding (r r' : RequesterRecord) : Prop :=
  r'.assigned = r.assigned ∧ r'.priority = r.priority ∧ r'.state.isWaiting = r.state.isWaiting ∧
  r'.state.isGranted = r.state.isGranted ∧ r'.isBlocked = r.isBlocked ∧
  r'.state.isPromoted = r.state.isPromoted ∧ r'.state.passes = r.state.passes

theorem RequesterRecord.sameStanding_refl (r : RequesterRecord) : r.sameStanding r :=
  ⟨rfl, rfl, rfl, rfl, rfl, rfl, rfl⟩

/-- The requester is neither in the queue of the channel nor its holder. -/
def RequesterRecord.awayFrom (r : RequesterRecord) (c : Channel) : Prop :=
  r.assigned = some c → r.state.isWaiting = false ∧ r.state.isGranted = false

theorem RequesterRecord.awayFrom_of_isFree {r : RequesterRecord} (h : r.isFree) (c : Channel) : r.awayFrom c :=
  fun _ => ⟨(RequesterRecord.flags_of_isFree h).1, (RequesterRecord.flags_of_isFree h).2.1⟩

theorem RequesterRecord.awayFrom_of_assigned {r : RequesterRecord} {c d : Channel} (h : r.assigned = some c)
    (hd : d ≠ c) : r.awayFrom d := fun hr => by
  rw [h] at hr
  exact absurd (Option.some.inj hr).symm hd

/-- The law of a channel is kept when its record stays as arbitration sees it, and each requester too or it is
neither in the queue nor the holder, before and after. -/
theorem Gar.channelSound_congr {g g' : Gar} {d : Channel} (h : g.channelSound d)
    (hsettings : (g'.channel d).settings = (g.channel d).settings) (hphase : (g'.channel d).phase = (g.channel d).phase)
    (hqueue : (g'.channel d).queue = (g.channel d).queue)
    (hhold : (g'.channel d).holdTimer = .stopped ↔ (g.channel d).holdTimer = .stopped)
    (hsettle : (g'.channel d).settleTimer = .stopped ↔ (g.channel d).settleTimer = .stopped)
    (hrequesters : ∀ m, (g.requester m).sameStanding (g'.requester m) ∨
      (g.requester m).awayFrom d ∧ (g'.requester m).awayFrom d ∧ ((g.channel d).phase = .settling (some m) →
        (g'.requester m).assigned = some d ∧ (g'.requester m).isBlocked = true)) :
    g'.channelSound d := by
  obtain ⟨⟨hnodup, hordered, hmembers, hpasses⟩, hlimit, hage, hholder, hsettling, hholdTimer, hsettleTimer⟩ := h
  have hmember : ∀ m ∈ (g.channel d).queue, (g.requester m).sameStanding (g'.requester m) := fun m hm => by
    obtain ⟨hassigned, hwaiting⟩ := (hmembers m).mp hm
    rcases hrequesters m with hsame | ⟨haway, -, -⟩
    · exact hsame
    · rw [(haway hassigned).1] at hwaiting
      cases hwaiting
  refine ⟨⟨hqueue ▸ hnodup, ?_, fun m => ?_, fun m hm => ?_⟩, hsettings ▸ hlimit, hsettings ▸ hage, fun m => ?_,
    fun m hm => ?_, ?_, ?_⟩
  · rw [hqueue, hsettings]
    refine hordered.imp_of_mem fun {m n} hm hn hmn => ?_
    obtain ⟨-, hpm, -, -, -, hprm, -⟩ := hmember m hm
    obtain ⟨-, hpn, -, -, -, hprn, -⟩ := hmember n hn
    unfold Gar.mayPrecede at hmn ⊢
    rw [hpm, hprm, hpn, hprn]
    exact hmn
  · rw [hqueue, hmembers m]
    rcases hrequesters m with ⟨hassigned, -, hwaiting, -⟩ | ⟨hbefore, hafter, -⟩
    · rw [hassigned, hwaiting]
    · constructor
      · rintro ⟨ha, hw⟩
        rw [(hbefore ha).1] at hw
        cases hw
      · rintro ⟨ha, hw⟩
        rw [(hafter ha).1] at hw
        cases hw
  · rw [hqueue] at hm
    obtain ⟨-, -, -, -, -, hpromoted, hcount⟩ := hmember m hm
    rw [hsettings, hpromoted, hcount]
    exact hpasses m hm
  · rw [hphase, hholder m]
    rcases hrequesters m with ⟨hassigned, -, -, hgranted, -⟩ | ⟨hbefore, hafter, -⟩
    · rw [hassigned, hgranted]
    · constructor
      · rintro ⟨ha, hw⟩
        rw [(hbefore ha).2] at hw
        cases hw
      · rintro ⟨ha, hw⟩
        rw [(hafter ha).2] at hw
        cases hw
  · rw [hphase] at hm
    rcases hrequesters m with ⟨hassigned, -, -, -, hblocked, -⟩ | ⟨-, -, hstays⟩
    · rw [hassigned, hblocked]
      exact hsettling m hm
    · exact hstays hm
  · rw [ne_eq, hhold, hphase, hsettings]
    exact hholdTimer
  · rw [ne_eq, hsettle, hphase]
    exact hsettleTimer

/-- A change of one requester and of one channel is no matter of the other channels, when the requester is of that channel
or takes no part in arbitration, before and after. -/
theorem Gar.sound_of_local {g g' : Gar} {c : Channel} {q : Requester} (h : g.sound)
    (hrequesters : ∀ m, m ≠ q → g'.requester m = g.requester m) (hchannels : ∀ d, d ≠ c → g'.channel d = g.channel d)
    (hbefore : (g.requester q).assigned = some c ∨ (g.requester q).isFree)
    (hafter : (g'.requester q).assigned = some c ∨ (g'.requester q).isFree) (hc : g'.channelSound c) : g'.sound := by
  intro d
  by_cases hd : d = c
  · exact hd ▸ hc
  have haway : ∀ r : RequesterRecord, r.assigned = some c ∨ r.isFree → r.awayFrom d := fun r hr =>
    hr.elim (fun hr => RequesterRecord.awayFrom_of_assigned hr hd) fun hr => RequesterRecord.awayFrom_of_isFree hr d
  have hsame := hchannels d hd
  refine Gar.channelSound_congr (h d) (by rw [hsame]) (by rw [hsame]) (by rw [hsame]) (by rw [hsame]) (by rw [hsame])
    fun m => ?_
  by_cases hm : m = q
  · subst hm
    refine .inr ⟨haway _ hbefore, haway _ hafter, fun hsettling => False.elim ?_⟩
    obtain ⟨-, -, -, hblocked, -⟩ := (h d).2
    obtain ⟨hassigned, hisBlocked⟩ := hblocked m hsettling
    rcases hbefore with hr | hr
    · rw [hr] at hassigned
      exact hd (Option.some.inj hassigned).symm
    · rw [(RequesterRecord.flags_of_isFree hr).2.2] at hisBlocked
      cases hisBlocked
  · exact .inl (hrequesters m hm ▸ RequesterRecord.sameStanding_refl _)

/-- A requester whose standing stays the same is replaced. -/
theorem Gar.sound_setRequester {g : Gar} {q : Requester} {x : RequesterRecord} (h : g.sound)
    (hx : (g.requester q).sameStanding x) : (g.setRequester q x).sound := by
  refine fun d => Gar.channelSound_congr (h d) rfl rfl rfl Iff.rfl Iff.rfl fun m => .inl ?_
  rw [Gar.requester_setRequester]
  split
  next hm => exact hm ▸ hx
  next => exact RequesterRecord.sameStanding_refl _

/-- The counters of a channel are no matter of its law. -/
theorem Gar.sound_setChannel {g : Gar} {c : Channel} {x : ChannelRecord} (h : g.sound)
    (hsettings : x.settings = (g.channel c).settings) (hphase : x.phase = (g.channel c).phase)
    (hqueue : x.queue = (g.channel c).queue) (hhold : x.holdTimer = (g.channel c).holdTimer)
    (hsettle : x.settleTimer = (g.channel c).settleTimer) : (g.setChannel c x).sound := by
  refine fun d => Gar.channelSound_congr (h d) ?_ ?_ ?_ ?_ ?_ fun m => .inl (RequesterRecord.sameStanding_refl _) <;>
    rw [Gar.channel_setChannel] <;> split <;> simp_all

/-! ### One channel under each transition -/

variable {g : Gar} {c : Channel} {q : Requester}

theorem Gar.channel_enqueue_of_ne {d : Channel} (hd : d ≠ c) : (g.enqueue c q).channel d = g.channel d :=
  (Gar.channel_setChannel ..).trans (if_neg hd)

theorem Gar.requester_enqueue_same : (g.enqueue c q).requester q = { g.requester q with state := .waiting 0 false } :=
  Gar.requester_setState_same ..

theorem Gar.requester_enqueue_of_ne {m : Requester} (hm : m ≠ q) : (g.enqueue c q).requester m = g.requester m :=
  Gar.requester_setState_of_ne _ _ hm

theorem Gar.channel_enqueue_same : (g.enqueue c q).channel c =
    { g.channel c with queue := insertBehind (g.staysAhead c q) q (g.channel c).queue } :=
  Gar.channel_setChannel_same ..

/-- A join keeps the law of its channel (R113). -/
theorem Gar.channelSound_enqueue (h : g.channelSound c) (hassigned : (g.requester q).assigned = some c)
    (hfree : (g.requester q).isFree) : (g.enqueue c q).channelSound c := by
  obtain ⟨⟨hnodup, hordered, hmembers, hpasses⟩, hlimit, hage, hholder, hsettling, hholdTimer, hsettleTimer⟩ := h
  obtain ⟨hwaiting, hgranted, hblocked⟩ := RequesterRecord.flags_of_isFree hfree
  have hout : q ∉ (g.channel c).queue := fun hin => by
    rw [((hmembers q).mp hin).2] at hwaiting
    cases hwaiting
  have hother : ∀ m ∈ (g.channel c).queue, (g.enqueue c q).requester m = g.requester m := fun m hm =>
    Gar.requester_enqueue_of_ne fun e => hout (e ▸ hm)
  unfold Gar.channelSound Gar.phaseSound Gar.queueLawful
  simp only [Gar.channel_enqueue_same, mem_insertBehind]
  refine ⟨⟨nodup_insertBehind _ _ _ hnodup hout, ?_, fun m => ?_, fun m hm => ?_⟩, hlimit, hage, fun m => ?_,
    fun m hm => ?_, hholdTimer, hsettleTimer⟩
  · cases hpolicy : (g.channel c).settings.policy with
    | arrival => exact List.pairwise_of_forall fun _ _ => rfl
    | priority =>
        rw [hpolicy] at hordered
        obtain ⟨ahead, behind, hqueue, hahead, hbehind, henqueue⟩ := Gar.enqueue_of_priority (q := q) hpolicy hordered
        have hplaced : insertBehind (g.staysAhead c q) q (g.channel c).queue = ahead ++ q :: behind := by
          have := Gar.channel_enqueue_same (g := g) (c := c) (q := q)
          rw [henqueue, Gar.channel_setState, Gar.channel_setChannel_same] at this
          exact (congrArg ChannelRecord.queue this).symm
        have hmay : ∀ m n, m ∈ (g.channel c).queue → n ∈ (g.channel c).queue → g.mayPrecede .priority m n = true →
            (g.enqueue c q).mayPrecede .priority m n = true := fun m n hm hn hmn => by
          unfold Gar.mayPrecede at hmn ⊢
          rwa [hother m hm, hother n hn]
        have hq : (g.enqueue c q).requester q = { g.requester q with state := .waiting 0 false } :=
          Gar.requester_enqueue_same
        rw [hplaced]
        rw [hqueue] at hordered hother hmay
        obtain ⟨hordered1, hordered2, hordered12⟩ := List.pairwise_append.mp hordered
        refine List.pairwise_append.mpr ⟨?_, List.pairwise_cons.mpr ⟨fun n hn => ?_, ?_⟩, fun m hm n hn => ?_⟩
        · exact hordered1.imp_of_mem fun hm hn => hmay _ _ (by simp [hm]) (by simp [hn])
        · obtain ⟨hunpromoted, hlt⟩ := hbehind n hn
          simp [Gar.mayPrecede, hq, hother n (by simp [hn]), hunpromoted, hlt.le]
        · exact hordered2.imp_of_mem fun hm hn => hmay _ _ (by simp [hm]) (by simp [hn])
        · rcases List.mem_cons.mp hn with rfl | hn
          · rcases hahead m hm with hpromoted | hle
            · simp [Gar.mayPrecede, hother m (by simp [hm]), hpromoted]
            · simp [Gar.mayPrecede, hq, hother m (by simp [hm]), hle, RequesterState.isPromoted]
          · exact hmay _ _ (by simp [hm]) (by simp [hn]) (hordered12 m hm n hn)
  · by_cases hm : m = q
    · subst hm
      simp [Gar.requester_enqueue_same, hassigned, RequesterState.isWaiting]
    · simp [hm, Gar.requester_enqueue_of_ne hm, hmembers m]
  · by_cases hmq : m = q
    · subst hmq
      simp only [Gar.requester_enqueue_same, RequesterState.passes, RequesterState.isPromoted]
      exact ⟨Nat.zero_le _, ⟨nofun, fun ⟨_, hpos, hzero⟩ => by omega⟩⟩
    · rw [Gar.requester_enqueue_of_ne hmq]
      exact hpasses m (hm.resolve_left hmq)
  · by_cases hm : m = q
    · subst hm
      rw [Gar.requester_enqueue_same, hholder m, hgranted]
      simp [RequesterState.isGranted]
    · rw [Gar.requester_enqueue_of_ne hm, hholder m]
  · have hmq : m ≠ q := fun e => by
      subst e
      rw [(hsettling m hm).2] at hblocked
      cases hblocked
    rw [Gar.requester_enqueue_of_ne hmq]
    exact hsettling m hm

theorem Gar.sound_enqueue (h : g.sound) (hassigned : (g.requester q).assigned = some c)
    (hfree : (g.requester q).isFree) : (g.enqueue c q).sound :=
  Gar.sound_of_local (q := q) (c := c) h (fun _ hm => Gar.requester_enqueue_of_ne hm)
    (fun _ hd => Gar.channel_enqueue_of_ne hd) (.inl hassigned)
    (.inl (by rw [Gar.requester_enqueue_same]; exact hassigned)) (Gar.channelSound_enqueue (h c) hassigned hfree)

/-- A requester that waits leaves its queue for IDLE (R114). -/
theorem Gar.sound_withdraw (h : g.sound) (hassigned : (g.requester q).assigned = some c)
    (hwaiting : (g.requester q).state.isWaiting = true) : (g.withdraw c q).sound := by
  obtain ⟨⟨hnodup, hordered, hmembers, hpasses⟩, hlimit, hage, hholder, hsettling, hholdTimer, hsettleTimer⟩ := h c
  have hgranted : (g.requester q).state.isGranted = false ∧ (g.requester q).isBlocked = false := by
    unfold RequesterRecord.isBlocked
    revert hwaiting
    cases (g.requester q).state <;> simp [RequesterState.isWaiting, RequesterState.isGranted]
  have hsame : (g.withdraw c q).requester q = { g.requester q with state := .idle } := Gar.requester_setState_same ..
  have hother : ∀ m, m ≠ q → (g.withdraw c q).requester m = g.requester m := fun m hm =>
    Gar.requester_setState_of_ne _ _ hm
  have hchannel : (g.withdraw c q).channel c = { g.channel c with queue := (g.channel c).queue.erase q } :=
    Gar.channel_setChannel_same ..
  have hkept : ∀ m ∈ (g.channel c).queue.erase q, m ∈ (g.channel c).queue ∧ m ≠ q := fun m hm =>
    (hnodup.mem_erase_iff.mp hm).symm
  refine Gar.sound_of_local (q := q) (c := c) h hother (fun d hd => (Gar.channel_setChannel ..).trans (if_neg hd))
    (.inl hassigned) (.inr (.inr (by rw [hsame]))) ?_
  unfold Gar.channelSound Gar.phaseSound Gar.queueLawful
  simp only [hchannel]
  refine ⟨⟨hnodup.erase q, ?_, fun m => ?_, fun m hm => ?_⟩, hlimit, hage, fun m => ?_, fun m hm => ?_, hholdTimer,
    hsettleTimer⟩
  · refine (hordered.sublist List.erase_sublist).imp_of_mem fun {m n} hm hn hmn => ?_
    unfold Gar.mayPrecede at hmn ⊢
    rwa [hother m (hkept m hm).2, hother n (hkept n hn).2]
  · rw [hnodup.mem_erase_iff]
    by_cases hm : m = q
    · subst hm
      simp [hsame, RequesterState.isWaiting]
    · rw [hother m hm, hmembers m]
      simp [hm]
  · obtain ⟨hin, hne⟩ := hkept m hm
    rw [hother m hne]
    exact hpasses m hin
  · by_cases hm : m = q
    · subst hm
      rw [hholder m, hgranted.1, hsame]
      simp [RequesterState.isGranted]
    · rw [hother m hm, hholder m]
  · have hne : m ≠ q := fun e => by
      rw [← e, (hsettling m hm).2] at hgranted
      cases hgranted.2
    rw [hother m hne]
    exact hsettling m hm

/-- The holder leaves its channel, which goes IDLE, or SETTLING with the holder BLOCKED (R120, R122). -/
theorem Gar.sound_of_holder_leaves {state : RequesterState} {x : ChannelRecord} (h : g.sound)
    (hheld : (g.channel c).phase = .held q) (hstate : state.isWaiting = false ∧ state.isGranted = false)
    (hsettings : x.settings = (g.channel c).settings) (hqueue : x.queue = (g.channel c).queue)
    (hhold : x.holdTimer = .stopped)
    (hphase : x.phase = .idle ∧ x.settleTimer = (g.channel c).settleTimer ∨
      x.phase = .settling (some q) ∧ x.settleTimer ≠ .stopped ∧ ∃ reason, state = .blocked reason) :
    ((g.setState q state).setChannel c x).sound := by
  obtain ⟨⟨hnodup, hordered, hmembers, hpasses⟩, hlimit, hage, hholder, hsettling, hholdTimer, hsettleTimer⟩ := h c
  obtain ⟨hassigned, hgranted⟩ := (hholder q).mp hheld
  have hsame : ((g.setState q state).setChannel c x).requester q = { g.requester q with state := state } :=
    Gar.requester_setState_same ..
  have hother : ∀ m, m ≠ q → ((g.setState q state).setChannel c x).requester m = g.requester m := fun m hm =>
    Gar.requester_setState_of_ne _ _ hm
  have hmember : ∀ m ∈ (g.channel c).queue, m ≠ q := fun m hm e => by
    have := ((hmembers m).mp hm).2
    rw [e] at this
    revert hgranted this
    cases (g.requester q).state <;> simp [RequesterState.isWaiting, RequesterState.isGranted]
  refine Gar.sound_of_local (q := q) (c := c) h hother (fun d hd => (Gar.channel_setChannel ..).trans (if_neg hd))
    (.inl hassigned) (.inl (by rw [hsame]; exact hassigned)) ?_
  unfold Gar.channelSound Gar.phaseSound Gar.queueLawful
  simp only [Gar.channel_setChannel_same, hsettings, hqueue]
  have hnone : ∀ m, x.phase ≠ .held m := fun m => by rcases hphase with ⟨h, -⟩ | ⟨h, -⟩ <;> simp [h]
  refine ⟨⟨hnodup, ?_, fun m => ?_, fun m hm => ?_⟩, hlimit, hage, fun m => ⟨fun hm => absurd hm (hnone m), ?_⟩,
    fun m hm => ?_, ?_, ?_⟩
  · refine hordered.imp_of_mem fun {m n} hm hn hmn => ?_
    unfold Gar.mayPrecede at hmn ⊢
    rwa [hother m (hmember m hm), hother n (hmember n hn)]
  · by_cases hm : m = q
    · subst hm
      rw [hsame]
      simp only [hstate.1, Bool.false_eq_true, and_false, iff_false]
      exact fun hin => hmember m hin rfl
    · rw [hother m hm, hmembers m]
  · rw [hother m (hmember m hm)]
    exact hpasses m hm
  · by_cases hm : m = q
    · subst hm
      rw [hsame]
      simp [hstate.2]
    · rw [hother m hm, ← hholder m, hheld]
      exact fun e => absurd (ChannelPhase.held.inj e).symm hm
  · rcases hphase with ⟨hidle, -⟩ | ⟨hset, -, reason, hreason⟩
    · rw [hidle] at hm
      cases hm
    · rw [hset] at hm
      obtain rfl : q = m := Option.some.inj (ChannelPhase.settling.inj hm)
      rw [hsame]
      exact ⟨hassigned, by simp [RequesterRecord.isBlocked, hreason]⟩
  · rcases hphase with ⟨h, -⟩ | ⟨h, -⟩ <;> simp [h, hhold, ChannelPhase.code]
  · rcases hphase with ⟨h, ht⟩ | ⟨h, ht, -⟩
    · rw [h, ht, hsettleTimer, hheld]
      simp [ChannelPhase.code]
    · simp [h, ht, ChannelPhase.code]

/-- The end of settling: the channel goes IDLE with its settle timer stopped (R124). -/
theorem Gar.sound_endSettling (h : g.sound) (hsettling : (g.channel c).phase.isSettling = true) :
    (g.endSettling c).sound := by
  refine fun d => ?_
  by_cases hd : d = c
  · subst hd
    obtain ⟨hqueue, hlimit, hage, hholder, -, hholdTimer, hsettleTimer⟩ := h d
    unfold Gar.channelSound Gar.phaseSound Gar.endSettling
    have hnot : ∀ m, (g.channel d).phase ≠ .held m := fun m hm => by
      rw [hm] at hsettling
      cases hsettling
    have hcode : (g.channel d).phase.code = 2 := by
      revert hsettling
      cases (g.channel d).phase <;> simp [ChannelPhase.isSettling, ChannelPhase.code]
    refine ⟨?_, ?_⟩
    · unfold Gar.queueLawful at hqueue ⊢
      rw [Gar.channel_setChannel_same]
      exact hqueue
    · rw [Gar.channel_setChannel_same]
      refine ⟨hlimit, hage, fun m => ⟨nofun, fun hm => absurd ((hholder m).mpr hm) (hnot m)⟩, fun m => nofun, ?_, ?_⟩
      · rw [hholdTimer, hcode]
        simp [ChannelPhase.code]
      · simp [ChannelPhase.code]
  · have hsame : (g.endSettling c).channel d = g.channel d := (Gar.channel_setChannel ..).trans (if_neg hd)
    refine Gar.channelSound_congr (h d) ?_ ?_ ?_ ?_ ?_ fun m => .inl (RequesterRecord.sameStanding_refl _) <;>
      rw [hsame]

end Sys2Proof.Machine
end

section
/-! The law of the grant arbiter: the grant rule, the sample event, the requests and the resets, and every step; and that the
internal sources stay at their conditions. -/

namespace Sys2Proof.Machine

variable {g : Gar} {c : Channel} {q : Requester}

/-! ### The grant rule -/

theorem Gar.sound_taken {rest : List Requester} (now : Time) (h : g.sound) (hidle : (g.channel c).phase = .idle)
    (hqueue : (g.channel c).queue = q :: rest) : (g.taken c q rest now).sound := by
  obtain ⟨⟨hnodup, hordered, hmembers, hpasses⟩, hlimit, hage, hholder, hsettling, hholdTimer, hsettleTimer⟩ := h c
  rw [hqueue] at hnodup hordered hmembers hpasses
  obtain ⟨hout, hnodup⟩ := List.nodup_cons.mp hnodup
  obtain ⟨hassigned, -⟩ := (hmembers q).mp List.mem_cons_self
  have hsame := g.requester_taken_same c q rest now
  have hother : ∀ m, m ≠ q → (g.taken c q rest now).requester m = g.requester m := fun m hm =>
    g.requester_taken_of_ne c rest now hm
  have hne : ∀ m ∈ rest, m ≠ q := fun m hm e => hout (e ▸ hm)
  refine Gar.sound_of_local (q := q) (c := c) h hother (fun d hd => g.channel_taken_of_ne q rest now hd)
    (.inl hassigned) (.inl (by rw [hsame]; exact hassigned)) ?_
  unfold Gar.channelSound Gar.phaseSound Gar.queueLawful
  rw [Gar.channel_taken_same]
  refine ⟨⟨hnodup, ?_, fun m => ?_, fun m hm => ?_⟩, hlimit, hage, fun m => ?_, fun m => nofun, ?_, ?_⟩
  · refine (List.pairwise_cons.mp hordered).2.imp_of_mem fun {m n} hm hn hmn => ?_
    unfold Gar.mayPrecede at hmn ⊢
    rwa [hother m (hne m hm), hother n (hne n hn)]
  · show m ∈ rest ↔ _
    by_cases hm : m = q
    · subst hm
      rw [hsame]
      simp [hout, RequesterState.isWaiting]
    · rw [hother m hm, ← hmembers m]
      simp [hm]
  · rw [hother m (hne m hm)]
    exact hpasses m (List.mem_cons_of_mem _ hm)
  · show ChannelPhase.held q = .held m ↔ _
    by_cases hm : m = q
    · subst hm
      rw [hsame]
      simp [hassigned, RequesterState.isGranted]
    · rw [hother m hm, ← hholder m, hidle]
      simp [Ne.symm hm]
  · simp only [ChannelRecord.granted, ChannelPhase.code]
    split <;> simp_all [MsTimer.start]
  · simp only [ChannelRecord.granted, ChannelPhase.code]
    rw [hsettleTimer, hidle]
    simp [ChannelPhase.code]

/-- The pass counts and promotions of the members of a queue stay within the age limit under one more pass (R115). -/
theorem RequesterState.passes_pass {x : RequesterState} {limit : Nat} (hwaiting : x.isWaiting = true)
    (hle : x.passes ≤ limit) (hpromoted : x.isPromoted = true ↔ x.passes = limit) :
    (x.pass limit).passes ≤ limit ∧ ((x.pass limit).isPromoted = true ↔ (x.pass limit).passes = limit) := by
  cases hp : x.isPromoted with
  | true =>
      rw [RequesterState.pass_of_promoted hp]
      exact ⟨hle, hpromoted⟩
  | false =>
      have hlt : x.passes ≠ limit := fun e => by simp [hpromoted.mpr e] at hp
      rw [RequesterState.pass_of_unpromoted hwaiting hp]
      show x.passes + 1 ≤ limit ∧ (decide (limit ≤ x.passes + 1) = true ↔ x.passes + 1 = limit)
      rw [decide_eq_true_eq]
      omega

/-- Aging keeps the order of a queue: the promoted stand first, and the others in the order of their bands (R116). -/
theorem Gar.pairwise_agedQueue {queue : List Requester} {g' : Gar} {limit : Nat}
    (hordered : queue.Pairwise fun m n => g.mayPrecede .priority m n = true)
    (hstate : ∀ m ∈ queue, g'.requester m = { g.requester m with state := (g.requester m).state.pass limit }) :
    (agedQueue (fun m => (g.requester m).state.isPromoted) (g.promotedAfter limit) queue).Pairwise
      fun m n => g'.mayPrecede .priority m n = true := by
  have hafter : ∀ m ∈ queue, (g'.requester m).state.isPromoted = g.promotedAfter limit m := fun m hm => by
    rw [hstate m hm]
    rfl
  have hfirst : ∀ m ∈ queue, g.promotedAfter limit m = true → ∀ n, g'.mayPrecede .priority m n = true :=
    fun m hm hp n => by simp [Gar.mayPrecede, hafter m hm, hp]
  have hkept : ∀ m, (g.requester m).state.isPromoted = true → g.promotedAfter limit m = true := fun m hm =>
    RequesterState.isPromoted_pass hm limit
  have hpromoted : ∀ p : Requester → Bool, (∀ m ∈ queue, p m = true → g.promotedAfter limit m = true) →
      (queue.filter p).Pairwise fun m n => g'.mayPrecede .priority m n = true := fun p hp =>
    List.pairwise_of_forall_mem_list fun m hm n _ => by
      obtain ⟨hin, hpm⟩ := List.mem_filter.mp hm
      exact hfirst m hin (hp m hin hpm) n
  unfold agedQueue
  refine List.pairwise_append.mpr ⟨List.pairwise_append.mpr ⟨hpromoted _ fun m _ => hkept m, hpromoted _ ?_,
    fun m hm n _ => ?_⟩, ?_, fun m hm n _ => ?_⟩
  · intro m _ hm
    exact (Bool.and_eq_true_iff.mp hm).2
  · obtain ⟨hin, hb⟩ := List.mem_filter.mp hm
    exact hfirst m hin (hkept m hb) n
  · refine (hordered.filter _).imp_of_mem fun {m n} hm hn hmn => ?_
    obtain ⟨hin, hnot⟩ := List.mem_filter.mp hm
    obtain ⟨hin', hnot'⟩ := List.mem_filter.mp hn
    have hunpromoted : (g.requester m).state.isPromoted = false := by
      by_contra hp
      simp [hkept m (by simpa using hp)] at hnot
    simp only [Bool.not_eq_eq_eq_not, Bool.not_true] at hnot'
    simp only [Gar.mayPrecede, hunpromoted, Bool.false_or, Bool.and_eq_true, decide_eq_true_eq] at hmn
    have hpriority : (g'.requester m).priority ≤ (g'.requester n).priority := by
      rw [hstate m hin, hstate n hin']
      exact hmn.2
    simp [Gar.mayPrecede, hafter n hin', hnot', hpriority]
  · rcases List.mem_append.mp hm with hm | hm
    · obtain ⟨hin, hb⟩ := List.mem_filter.mp hm
      exact hfirst m hin (hkept m hb) n
    · obtain ⟨hin, hb⟩ := List.mem_filter.mp hm
      exact hfirst m hin (Bool.and_eq_true_iff.mp hb).2 n

theorem Gar.sound_age (h : g.sound) : (g.age c).sound := by
  by_cases hages : (g.channel c).settings.ages
  swap
  · rwa [Gar.age_of_not_ages hages]
  obtain ⟨⟨hnodup, hordered, hmembers, hpasses⟩, hlimit, hage, hholder, hsettling, hholdTimer, hsettleTimer⟩ := h c
  have hin : ∀ m ∈ (g.channel c).queue, (g.age c).requester m =
      { g.requester m with state := (g.requester m).state.pass (g.channel c).settings.ageLimit.toNat } :=
    fun m hm => (Gar.requester_age hages m).trans (if_pos hm)
  have hnotin : ∀ m, m ∉ (g.channel c).queue → (g.age c).requester m = g.requester m :=
    fun m hm => (Gar.requester_age hages m).trans (if_neg hm)
  have hunblocked : ∀ m ∈ (g.channel c).queue, (g.requester m).isBlocked = false := fun m hm => by
    have hwaiting := ((hmembers m).mp hm).2
    unfold RequesterRecord.isBlocked
    revert hwaiting
    cases (g.requester m).state <;> simp [RequesterState.isWaiting]
  intro d
  by_cases hd : d = c
  · subst hd
    unfold Gar.channelSound Gar.phaseSound Gar.queueLawful
    rw [Gar.channel_age_same hages]
    have hmem := fun m => mem_agedQueue (fun m => (g.requester m).state.isPromoted)
      (g.promotedAfter (g.channel d).settings.ageLimit.toNat) (g.channel d).queue m
    simp only [hmem]
    refine ⟨⟨nodup_agedQueue hnodup fun m _ hm => RequesterState.isPromoted_pass hm _, ?_, fun m => ?_, fun m hm => ?_⟩,
      hlimit, hage, fun m => ?_, fun m hm => ?_, hholdTimer, hsettleTimer⟩
    · rw [hages.1] at hordered ⊢
      exact Gar.pairwise_agedQueue hordered hin
    · by_cases hm : m ∈ (g.channel d).queue
      · rw [hin m hm, RequesterState.isWaiting_pass]
        exact hmembers m
      · rw [hnotin m hm]
        exact hmembers m
    · obtain ⟨hle, hpromoted⟩ := hpasses m hm
      rw [hages.1] at hpromoted ⊢
      simp only [hages.2, true_and] at hpromoted ⊢
      rw [hin m hm]
      exact RequesterState.passes_pass ((hmembers m).mp hm).2 hle hpromoted
    · by_cases hm : m ∈ (g.channel d).queue
      · rw [hin m hm, RequesterState.isGranted_pass]
        exact hholder m
      · rw [hnotin m hm]
        exact hholder m
    · have hm' : m ∉ (g.channel d).queue := fun hin => by
        have := (hsettling m hm).2
        rw [hunblocked m hin] at this
        cases this
      rw [hnotin m hm']
      exact hsettling m hm
  · have hsame := g.channel_age_of_ne hd
    refine Gar.channelSound_congr (h d) (by rw [hsame]) (by rw [hsame]) (by rw [hsame]) (by rw [hsame]) (by rw [hsame])
      fun m => ?_
    by_cases hm : m ∈ (g.channel c).queue
    · have hassigned := ((hmembers m).mp hm).1
      refine .inr ⟨RequesterRecord.awayFrom_of_assigned hassigned hd,
        RequesterRecord.awayFrom_of_assigned (by rw [hin m hm]; exact hassigned) hd, fun hset => ?_⟩
      have hblocked := ((h d).2.2.2.2.1 m hset).2
      rw [hunblocked m hm] at hblocked
      cases hblocked
    · exact .inl (hnotin m hm ▸ RequesterRecord.sameStanding_refl _)

/-- A requester record stays lawful under one more pass. -/
theorem RequesterRecord.lawful_pass {r : RequesterRecord} (h : r.lawful) (limit : Nat) :
    RequesterRecord.lawful { r with state := r.state.pass limit } := by
  cases hw : r.state.isWaiting with
  | false => rwa [RequesterState.pass_of_not_waiting hw]
  | true =>
      obtain ⟨hdetached, hidle, hhigh⟩ := h
      unfold RequesterRecord.lawful
      revert hdetached hidle hhigh hw
      cases r.state with
      | waiting passes promoted =>
          intro _ hdetached _ hhigh
          cases promoted <;> exact ⟨iff_of_false nofun (fun h => nomatch hdetached.mpr h), nofun, fun _ _ => hhigh nofun nofun⟩
      | _ => nofun

theorem Gar.lawful_records_age (h : ∀ m, (g.requester m).lawful) (m : Requester) : ((g.age c).requester m).lawful := by
  by_cases hages : (g.channel c).settings.ages
  · rw [Gar.requester_age hages]
    split
    · exact RequesterRecord.lawful_pass (h m) _
    · exact h m
  · rw [Gar.age_of_not_ages hages]
    exact h m

/-- A waiting requester is assigned and has its REQ level recorded as HIGH, and so the record is lawful in every engaged
state (R96). -/
theorem RequesterRecord.lawful_of_high {r : RequesterRecord} (hassigned : r.assigned ≠ none) (hhigh : r.reqLevel = .high)
    (hstate : ¬ r.isFree) : r.lawful := by
  obtain ⟨hdetached, hidle⟩ := not_or.mp hstate
  exact ⟨iff_of_false hdetached hassigned, fun h => absurd h hidle, fun _ _ => hhigh⟩

theorem RequesterRecord.high_of_not_free {r : RequesterRecord} (h : r.lawful) (hstate : ¬ r.isFree) :
    r.reqLevel = .high :=
  let ⟨hdetached, hidle⟩ := not_or.mp hstate
  h.2.2 hdetached hidle

/-- A requester that waits or holds a channel has its REQ level recorded as HIGH. -/
theorem RequesterRecord.high_of_engaged {r : RequesterRecord} (h : r.lawful)
    (hstate : r.state.isWaiting = true ∨ r.state.isGranted = true) : r.reqLevel = .high :=
  RequesterRecord.high_of_not_free h fun hfree => by
    obtain ⟨hwaiting, hgranted, -⟩ := RequesterRecord.flags_of_isFree hfree
    rw [hwaiting, hgranted] at hstate
    simp at hstate

/-- The law of the record of a DETACHED requester. -/
theorem RequesterRecord.lawful_detached {r : RequesterRecord} (hassigned : r.assigned = none)
    (hstate : r.state = .detached) : r.lawful :=
  ⟨iff_of_true hstate hassigned, fun h => absurd (hstate.symm.trans h) (by simp), fun h => absurd hstate h⟩

/-- The phase of a channel after aging is as it was. -/
theorem Gar.phase_age (d : Channel) : ((g.age c).channel d).phase = (g.channel d).phase := by
  by_cases hages : (g.channel c).settings.ages
  · by_cases hd : d = c
    · subst hd
      rw [Gar.channel_age_same hages]
    · rw [g.channel_age_of_ne hd]
  · rw [Gar.age_of_not_ages hages]

/-- What the grant test does: nothing, or a grant to the head of the queue. -/
theorem Gar.grantTest_cases (g : Gar) (c : Channel) (now : Time) :
    (g.ruleApplied c ∧ g.grantTest c now = GarStep.quiet g) ∨
    ∃ q rest, (g.channel c).phase = .idle ∧ (g.channel c).queue = q :: rest ∧
      g.grantTest c now = g.grant c q rest now := by
  by_cases h : (g.channel c).settings.isOpen = false ∨ (g.channel c).phase ≠ .idle ∨ (g.channel c).queue = []
  · refine .inl ⟨?_, Gar.grantTest_of_not now h⟩
    rintro ⟨hopen, hidle, hqueue⟩
    rcases h with h | h | h
    · simp [hopen] at h
    · exact h hidle
    · exact hqueue h
  · simp only [not_or, Bool.not_eq_false, ne_eq, not_not] at h
    obtain ⟨hopen, hidle, hqueue⟩ := h
    obtain ⟨q, rest, hq⟩ := List.exists_cons_of_ne_nil hqueue
    exact .inr ⟨q, rest, hidle, hq, Gar.grantTest_of_head now hopen hidle hq⟩

theorem Gar.lawful_grantTest (now : Time) (h : g.lawfulBut c) : (g.grantTest c now).gar.lawful := by
  obtain ⟨hrecords, hsound, hrules⟩ := h
  rw [Gar.lawful_iff]
  rcases g.grantTest_cases c now with ⟨hrule, heq⟩ | ⟨q, rest, hidle, hqueue, heq⟩
  · rw [heq]
    refine ⟨hrecords, hsound, fun d => ?_⟩
    by_cases hd : d = c
    · exact hd ▸ hrule
    · exact hrules d hd
  · rw [heq, Gar.gar_grant]
    refine ⟨Gar.lawful_records_age fun m => ?_, Gar.sound_age (Gar.sound_taken now hsound hidle hqueue), fun d => ?_⟩
    · by_cases hm : m = q
      · subst hm
        obtain ⟨hassigned, hwaiting⟩ := ((hsound c).1.2.2.1 m).mp (hqueue ▸ List.mem_cons_self)
        rw [Gar.requester_taken_same]
        have hhigh := RequesterRecord.high_of_engaged (hrecords m) (.inl hwaiting)
        exact RequesterRecord.lawful_of_high (by simp [hassigned]) hhigh (by simp [RequesterRecord.isFree])
      · rw [g.requester_taken_of_ne c rest now hm]
        exact hrecords m
    · by_cases hd : d = c
      · subst hd
        rintro ⟨-, hphase, -⟩
        rw [Gar.phase_age, Gar.channel_taken_same] at hphase
        cases hphase
      · unfold Gar.ruleApplied
        rw [Gar.channel_age_of_ne _ hd, g.channel_taken_of_ne q rest now hd]
        exact hrules d hd

/-! ### The samples of one requester -/

/-- A change of one requester and of channel `c` keeps the law while the grant rule is to be applied at `c`. -/
theorem Gar.lawfulBut_of_local {g' : Gar} (h : g.lawfulBut c)
    (hrequesters : ∀ m, m ≠ q → g'.requester m = g.requester m) (hchannels : ∀ d, d ≠ c → g'.channel d = g.channel d)
    (hq : (g'.requester q).lawful) (hsound : g'.sound) : g'.lawfulBut c := by
  obtain ⟨hrecords, -, hrules⟩ := h
  refine ⟨fun m => ?_, hsound, fun d hd => ?_⟩
  · by_cases hm : m = q
    · exact hm ▸ hq
    · rw [hrequesters m hm]
      exact hrecords m
  · unfold Gar.ruleApplied
    rw [hchannels d hd]
    exact hrules d hd

theorem Gar.requester_setRequester_of_ne {m : Requester} (x : RequesterRecord) (h : m ≠ q) :
    (g.setRequester q x).requester m = g.requester m := (Gar.requester_setRequester ..).trans (if_neg h)

theorem Gar.channel_setChannel_of_ne {d : Channel} (x : ChannelRecord) (h : d ≠ c) :
    (g.setChannel c x).channel d = g.channel d := (Gar.channel_setChannel ..).trans (if_neg h)

theorem Gar.lawfulBut_setRequester {x : RequesterRecord} (h : g.lawfulBut c) (hx : (g.requester q).sameStanding x)
    (hlawful : x.lawful) : (g.setRequester q x).lawfulBut c :=
  Gar.lawfulBut_of_local (q := q) h (fun _ hm => Gar.requester_setRequester_of_ne x hm) (fun _ _ => rfl)
    (by rwa [Gar.requester_setRequester_same]) (Gar.sound_setRequester h.2.1 hx)

/-- An arrival keeps the law: the requester is assigned, free and has its REQ level recorded as HIGH. -/
theorem Gar.lawfulBut_enqueue {g₀ : Gar} (h : g₀.lawfulBut c) (hsound : g.sound)
    (hrequesters : ∀ m, m ≠ q → g.requester m = g₀.requester m) (hchannels : ∀ d, d ≠ c → g.channel d = g₀.channel d)
    (hassigned : (g.requester q).assigned = some c) (hfree : (g.requester q).isFree)
    (hhigh : (g.requester q).reqLevel = .high) : (g.enqueue c q).lawfulBut c := by
  refine Gar.lawfulBut_of_local (q := q) h (fun m hm => ?_) (fun d hd => ?_) ?_
    (Gar.sound_enqueue hsound hassigned hfree)
  · rw [Gar.requester_enqueue_of_ne hm, hrequesters m hm]
  · rw [Gar.channel_enqueue_of_ne hd, hchannels d hd]
  · rw [Gar.requester_enqueue_same]
    exact RequesterRecord.lawful_of_high (by simp [hassigned]) hhigh (by simp [RequesterRecord.isFree])

/-- The law of a requester record that leaves a grant or a queue for IDLE with its REQ level recorded as LOW. -/
theorem RequesterRecord.lawful_of_low {r : RequesterRecord} (hassigned : r.assigned ≠ none) (hidle : r.state = .idle)
    (hlow : r.reqLevel = .low) : r.lawful :=
  ⟨iff_of_false (by simp [hidle]) hassigned, fun _ => hlow, fun _ h => absurd hidle h⟩

/-- The holder's channel is in phase HELD with it as holder. -/
theorem Gar.held_of_granted (h : g.sound) (hassigned : (g.requester q).assigned = some c)
    (hgranted : (g.requester q).state.isGranted = true) : (g.channel c).phase = .held q :=
  ((h c).2.2.2.1 q).mpr ⟨hassigned, hgranted⟩

theorem Gar.endGrant_gar (reason : EndReason) (now : Time) : (g.endGrant c q reason now).gar =
    (g.setState q .idle).setChannel c { g.channel c with phase := .idle, holdTimer := .stopped } := rfl

theorem Gar.sound_endGrant (reason : EndReason) (now : Time) (h : g.sound)
    (hheld : (g.channel c).phase = .held q) : (g.endGrant c q reason now).gar.sound := by
  rw [Gar.endGrant_gar]
  exact Gar.sound_of_holder_leaves h hheld ⟨rfl, rfl⟩ rfl rfl rfl (.inl ⟨rfl, rfl⟩)

theorem Gar.requester_endGrant_same (reason : EndReason) (now : Time) :
    (g.endGrant c q reason now).gar.requester q = { g.requester q with state := .idle } :=
  Gar.requester_setState_same ..

theorem Gar.requester_endGrant_of_ne {m : Requester} (reason : EndReason) (now : Time) (h : m ≠ q) :
    (g.endGrant c q reason now).gar.requester m = g.requester m := Gar.requester_setState_of_ne _ _ h

theorem Gar.channel_endGrant_of_ne {d : Channel} (reason : EndReason) (now : Time) (h : d ≠ c) :
    (g.endGrant c q reason now).gar.channel d = g.channel d := Gar.channel_setChannel_of_ne _ h

/-- A grant ended on QUOTA: the requester, whose REQ level is HIGH, joins the queue again (R121). -/
theorem Gar.lawfulBut_endOnQuota (now : Time) (h : g.lawfulBut c) (hassigned : (g.requester q).assigned = some c)
    (hgranted : (g.requester q).state.isGranted = true) : (g.endOnQuota c q now).gar.lawfulBut c := by
  have hhigh := RequesterRecord.high_of_engaged (h.1 q) (.inr hgranted)
  have hended : ((g.endGrant c q .quota now).gar.requester q).reqLevel = .high := by
    rw [Gar.requester_endGrant_same]
    exact hhigh
  have heq : (g.endOnQuota c q now).gar = (g.endGrant c q .quota now).gar.enqueue c q := by
    simp only [Gar.endOnQuota, GarStep.andThen, GarStep.quiet]
    rw [if_pos hended]
  rw [heq]
  exact Gar.lawfulBut_enqueue h (Gar.sound_endGrant .quota now h.2.1 (Gar.held_of_granted h.2.1 hassigned hgranted))
    (fun _ hm => Gar.requester_endGrant_of_ne _ _ hm) (fun _ hd => Gar.channel_endGrant_of_ne _ _ hd)
    (by rw [Gar.requester_endGrant_same]; exact hassigned) (.inr (by rw [Gar.requester_endGrant_same])) hended

theorem Gar.lawfulBut_doneEdge (now : Time) (h : g.lawfulBut c) (hassigned : (g.requester q).assigned = some c) :
    (g.doneEdge c q now).gar.lawfulBut c := by
  have hcounted : ∀ x : ChannelRecord, x.settings = (g.channel c).settings → x.phase = (g.channel c).phase →
      x.queue = (g.channel c).queue → x.holdTimer = (g.channel c).holdTimer →
      x.settleTimer = (g.channel c).settleTimer → (g.setChannel c x).lawfulBut c := fun x h1 h2 h3 h4 h5 =>
    Gar.lawfulBut_of_local (q := q) h (fun _ _ => rfl) (fun _ hd => Gar.channel_setChannel_of_ne x hd) (h.1 q)
      (Gar.sound_setChannel h.2.1 h1 h2 h3 h4 h5)
  unfold Gar.doneEdge
  cases hstate : (g.requester q).state with
  | detached => exact h
  | granted units start =>
      have hunits : (g.setState q (.granted (satInc units) start)).lawfulBut c := by
        refine Gar.lawfulBut_setRequester h ?_ ?_
        · simp [RequesterRecord.sameStanding, RequesterRecord.isBlocked, hstate, RequesterState.isWaiting,
            RequesterState.isGranted, RequesterState.isPromoted, RequesterState.passes]
        · have hhigh := RequesterRecord.high_of_engaged (h.1 q) (.inr (by rw [hstate]; rfl))
          exact RequesterRecord.lawful_of_high (by simp [hassigned]) hhigh (by simp [RequesterRecord.isFree])
      simp only
      split
      · refine Gar.lawfulBut_endOnQuota now hunits ?_ ?_ <;> rw [Gar.requester_setState_same]
        · exact hassigned
        · rfl
      · exact hunits
  | idle => exact hcounted _ rfl rfl rfl rfl rfl
  | waiting passes promoted => exact hcounted _ rfl rfl rfl rfl rfl
  | blocked reason => cases reason <;> exact hcounted _ rfl rfl rfl rfl rfl

theorem Gar.lawfulBut_takeDone (sample : Level) (now : Time) (h : g.lawfulBut c)
    (hassigned : (g.requester q).assigned = some c) : (g.takeDone c q sample now).gar.lawfulBut c := by
  have hsampled : (g.setRequester q { g.requester q with doneLevel := some sample }).lawfulBut c :=
    Gar.lawfulBut_setRequester h (RequesterRecord.sameStanding_refl _) (h.1 q)
  unfold Gar.takeDone
  simp only
  split
  · exact Gar.lawfulBut_doneEdge now hsampled (by rw [Gar.requester_setRequester_same]; exact hassigned)
  · exact hsampled

/-- A requester that no channel has in its queue, as holder or as settling requester is replaced by another such. -/
theorem Gar.sound_setRequester_away {x : RequesterRecord} (h : g.sound) (hbefore : ∀ d, (g.requester q).awayFrom d)
    (hafter : ∀ d, x.awayFrom d)
    (hsettling : ∀ d, (g.channel d).phase = .settling (some q) → x.assigned = some d ∧ x.isBlocked = true) :
    (g.setRequester q x).sound := by
  refine fun d => Gar.channelSound_congr (h d) rfl rfl rfl Iff.rfl Iff.rfl fun m => ?_
  by_cases hm : m = q
  · subst hm
    rw [Gar.requester_setRequester_same]
    exact .inr ⟨hbefore d, hafter d, hsettling d⟩
  · rw [Gar.requester_setRequester_of_ne x hm]
    exact .inl (RequesterRecord.sameStanding_refl _)

theorem RequesterRecord.awayFrom_of_blocked {r : RequesterRecord} {reason : BlockReason} (h : r.state = .blocked reason)
    (d : Channel) : r.awayFrom d := fun _ => by simp [h, RequesterState.isWaiting, RequesterState.isGranted]

/-- The settling requester of a channel is assigned to it. -/
theorem Gar.assigned_of_settling {d : Channel} (h : g.sound) (hsettling : (g.channel d).phase = .settling (some q)) :
    (g.requester q).assigned = some d ∧ (g.requester q).isBlocked = true := (h d).2.2.2.2.1 q hsettling

/-- A BLOCKED requester whose REQ drops is IDLE, and a settling that waits for it ends (R101, R124). -/
theorem Gar.lawfulBut_unblock {reason : BlockReason} (h : g.lawfulBut c) (hassigned : (g.requester q).assigned = some c)
    (hblocked : (g.requester q).state = .blocked reason) :
    Gar.lawfulBut
      (if (g.channel c).phase = .settling (some q) then
        (g.setRequester q { g.requester q with reqLevel := .low, state := .idle }).endSettling c
      else g.setRequester q { g.requester q with reqLevel := .low, state := .idle }) c := by
  let x : RequesterRecord := { g.requester q with reqLevel := .low, state := .idle }
  have hlawful : x.lawful := RequesterRecord.lawful_of_low (by simp [x, hassigned]) rfl rfl
  have hfreed : ∀ g' : Gar, g'.sound → g'.requester q = g.requester q → (g'.channel c).phase ≠ .settling (some q) →
      (g'.setRequester q x).sound := fun g' hsound hrequester hnot => by
    refine Gar.sound_setRequester_away hsound (fun d => ?_)
      (fun d => RequesterRecord.awayFrom_of_isFree (.inr rfl) d) fun d hsettling => ?_
    · exact RequesterRecord.awayFrom_of_blocked (by rw [hrequester]; exact hblocked) d
    · have hown := (Gar.assigned_of_settling hsound hsettling).1
      rw [hrequester, hassigned] at hown
      exact absurd (Option.some.inj hown ▸ hsettling) hnot
  split
  next hsettling =>
    have hended := Gar.sound_endSettling h.2.1 (c := c) (by rw [hsettling]; rfl)
    refine Gar.lawfulBut_of_local (q := q) h (fun m hm => ?_) (fun d hd => ?_) ?_
      (hfreed (g.endSettling c) hended rfl ?_)
    · exact Gar.requester_setRequester_of_ne x hm
    · exact Gar.channel_setChannel_of_ne _ hd
    · exact (Gar.requester_setRequester_same g q x).symm ▸ hlawful
    · rw [Gar.endSettling, Gar.channel_setChannel_same]
      nofun
  next hnot =>
    refine Gar.lawfulBut_of_local (q := q) h (fun m hm => Gar.requester_setRequester_of_ne x hm) (fun _ _ => rfl) ?_
      (hfreed g h.2.1 rfl hnot)
    rwa [Gar.requester_setRequester_same]

theorem Gar.setState_setRequester (x : RequesterRecord) (state : RequesterState) :
    (g.setRequester q x).setState q state = g.setRequester q { x with state := state } := by
  rw [Gar.setState, Gar.requester_setRequester_same]
  simp only [Gar.setRequester, Tbl.write_write]

theorem Gar.lawfulBut_takeReq (sample : Level) (now : Time) (h : g.lawfulBut c)
    (hassigned : (g.requester q).assigned = some c) : (g.takeReq c q sample now).gar.lawfulBut c := by
  unfold Gar.takeReq
  split
  · exact h
  next hlevel =>
    have hrecord := h.1 q
    have hdetached : (g.requester q).state ≠ .detached := fun e => by
      rw [hrecord.1.mp e] at hassigned
      cases hassigned
    simp only
    cases sample with
    | high =>
        have hidle : (g.requester q).state = .idle := by
          by_contra hnot
          exact hlevel (hrecord.2.2 hdetached hnot)
        let x : RequesterRecord := { g.requester q with reqLevel := .high }
        have hsound : (g.setRequester q x).sound :=
          Gar.sound_setRequester h.2.1 (RequesterRecord.sameStanding_refl _)
        have hrise : (g.setRequester q x).reqRise c q = (g.setRequester q x).enqueue c q := by
          simp [Gar.reqRise, x, hidle]
        show ((g.setRequester q x).reqRise c q).lawfulBut c
        rw [hrise]
        refine Gar.lawfulBut_enqueue h hsound (fun m hm => Gar.requester_setRequester_of_ne x hm) (fun _ _ => rfl) ?_ ?_
          ?_ <;> rw [Gar.requester_setRequester_same]
        · exact hassigned
        · exact .inr hidle
    | low =>
        let x : RequesterRecord := { g.requester q with reqLevel := .low }
        have hsound : (g.setRequester q x).sound :=
          Gar.sound_setRequester h.2.1 (RequesterRecord.sameStanding_refl _)
        have hx : (g.setRequester q x).requester q = x := Gar.requester_setRequester_same ..
        have hassigned' : ((g.setRequester q x).requester q).assigned = some c := by
          rw [hx]
          exact hassigned
        have hother : ∀ m, m ≠ q → (g.setRequester q x).requester m = g.requester m := fun m hm =>
          Gar.requester_setRequester_of_ne x hm
        have hlawful : RequesterRecord.lawful { x with state := .idle } :=
          RequesterRecord.lawful_of_low (by simp [x, hassigned]) rfl rfl
        show ((g.setRequester q x).reqDrop c q now).gar.lawfulBut c
        unfold Gar.reqDrop
        rw [hx]
        cases hstate : x.state with
        | detached => exact absurd hstate hdetached
        | idle =>
            cases hreq : (g.requester q).reqLevel with
            | low => exact absurd hreq hlevel
            | high =>
                rw [hrecord.2.1 hstate] at hreq
                cases hreq
        | waiting passes promoted =>
            refine Gar.lawfulBut_of_local (q := q) h (fun m hm => ?_) (fun d hd => Gar.channel_setChannel_of_ne _ hd) ?_
              (Gar.sound_withdraw hsound hassigned' (by rw [hx, hstate]; rfl))
            · exact (Gar.requester_setState_of_ne _ _ hm).trans (hother m hm)
            · have hleft : ((g.setRequester q x).withdraw c q).requester q = { x with state := .idle } :=
                (Gar.requester_setState_same ..).trans (by rw [Gar.requester_setChannel, hx])
              exact hleft.symm ▸ hlawful
        | granted units start =>
            have hheld := Gar.held_of_granted hsound hassigned' (by rw [hx, hstate]; rfl)
            refine Gar.lawfulBut_of_local (q := q) h (fun m hm => ?_) (fun d hd => Gar.channel_endGrant_of_ne _ _ hd) ?_
              (Gar.sound_endGrant .released now hsound hheld)
            · rw [Gar.requester_endGrant_of_ne _ _ hm, hother m hm]
            · rw [Gar.requester_endGrant_same, hx]
              exact hlawful
        | blocked reason =>
            simp only [Gar.channel_setRequester, Gar.setState_setRequester]
            exact Gar.lawfulBut_unblock h hassigned hstate

theorem Gar.assigned_takeDone (sample : Level) (now : Time) :
    ((g.takeDone c q sample now).gar.requester q).assigned = (g.requester q).assigned := by
  unfold Gar.takeDone Gar.doneEdge Gar.endOnQuota Gar.endGrant
  simp only [GarStep.andThen, GarStep.quiet]
  repeat' split
  all_goals simp [Gar.enqueue]

/-- The samples of one requester keep the law while the grant rule is to be applied (R99). -/
theorem Gar.lawfulBut_sampleRequester (req done : Pins) (now : Time) (h : g.lawfulBut c) :
    (Gar.sampleRequester c req done now q g).gar.lawfulBut c := by
  unfold Gar.sampleRequester
  cases hassigned : (g.requester q).assigned with
  | none =>
      have hdetached : (g.requester q).state = .detached := (h.1 q).1.mpr hassigned
      refine Gar.lawfulBut_setRequester h (RequesterRecord.sameStanding_refl _)
        ⟨iff_of_true hdetached hassigned, fun hidle => ?_, fun hnot => absurd hdetached hnot⟩
      rw [hdetached] at hidle
      cases hidle
  | some own =>
      simp only
      split
      next hown =>
        subst hown
        have hdone := Gar.lawfulBut_takeDone (done.read q) now h hassigned
        exact Gar.lawfulBut_takeReq (req.read q) now hdone (by rw [Gar.assigned_takeDone]; exact hassigned)
      next => exact h

theorem GarStep.gar_andThen (x : GarStep) (f : Gar → GarStep) : (x.andThen f).gar = (f x.gar).gar := rfl

/-- What each part of an event keeps, all of them in turn keep. -/
theorem GarStep.foldl_keeps {P : Gar → Prop} {f : Requester → Gar → GarStep} (h : ∀ q g, P g → P (f q g).gar)
    (requesters : List Requester) (x : GarStep) (hx : P x.gar) :
    P (requesters.foldl (fun x q => x.andThen (f q)) x).gar := by
  induction requesters generalizing x with
  | nil => exact hx
  | cons q rest ih => exact ih _ (h q _ hx)

theorem Gar.lawful_sampleEvent (req done : Pins) (now : Time) (h : g.lawful) :
    (g.sampleEvent c req done now).gar.lawful := by
  rw [Gar.sampleEvent, GarStep.gar_andThen]
  exact Gar.lawful_grantTest now (GarStep.foldl_keeps (P := fun g => g.lawfulBut c)
    (fun _ _ hg => Gar.lawfulBut_sampleRequester req done now hg) _ _ (Gar.lawfulBut_of_lawful h c))

/-! ### Recovery and settling -/

/-- Without a holder there is nothing to take back. -/
theorem Gar.takeBack_of_not_held (recovery : Recovery) (now : Time) (h : ∀ q, (g.channel c).phase ≠ .held q) :
    g.takeBack c recovery now = GarStep.quiet g := by
  unfold Gar.takeBack
  cases hphase : (g.channel c).phase with
  | held q => exact absurd hphase (h q)
  | idle => simp only [hphase]
  | settling q => simp only [hphase]

/-- The holder is BLOCKED, and its channel settles with it (R122, R123). -/
theorem Gar.takeBack_of_held (recovery : Recovery) (now : Time) (h : (g.channel c).phase = .held q) :
    g.takeBack c recovery now =
      { gar := (g.setState q (.blocked recovery.reason)).setChannel c { g.channel c with
          phase := .settling (some q)
          holdTimer := .stopped
          settleTimer := .start (g.channel c).settings.settleLimit.toNat
          timeouts := if recovery = .holdTimeout then satInc (g.channel c).timeouts else (g.channel c).timeouts
          revokes := if recovery = .revoke then satInc (g.channel c).revokes else (g.channel c).revokes }
        events := [{ channel := c, requester := q, what := recovery.what, reason := .none,
                     units := (g.requester q).state.units, duration := elapsed now (g.requester q).state.start,
                     time := now }] } := by
  simp only [Gar.takeBack, h]

theorem Gar.lawful_takeBack (recovery : Recovery) (now : Time) (h : g.lawful) :
    (g.takeBack c recovery now).gar.lawful := by
  cases hphase : (g.channel c).phase with
  | idle => rwa [Gar.takeBack_of_not_held recovery now (by simp [hphase])]
  | settling q => rwa [Gar.takeBack_of_not_held recovery now (by simp [hphase])]
  | held q =>
      rw [Gar.takeBack_of_held recovery now hphase]
      obtain ⟨hrecords, hsound, hrules⟩ := Gar.lawful_iff.mp h
      obtain ⟨hassigned, hgranted⟩ := ((hsound c).2.2.2.1 q).mp hphase
      rw [Gar.lawful_iff]
      refine ⟨fun m => ?_, Gar.sound_of_holder_leaves hsound hphase ⟨rfl, rfl⟩ rfl rfl rfl
        (.inr ⟨rfl, by simp [MsTimer.start], _, rfl⟩), fun d => ?_⟩
      · rw [Gar.requester_setChannel]
        by_cases hm : m = q
        · subst hm
          rw [Gar.requester_setState_same]
          have hhigh := RequesterRecord.high_of_engaged (hrecords m) (.inr hgranted)
          exact RequesterRecord.lawful_of_high (by simp [hassigned]) hhigh (by simp [RequesterRecord.isFree])
        · rw [Gar.requester_setState_of_ne _ _ hm]
          exact hrecords m
      · unfold Gar.ruleApplied
        by_cases hd : d = c
        · subst hd
          rw [Gar.channel_setChannel_same]
          simp
        · rw [Gar.channel_setChannel_of_ne _ hd]
          exact hrules d

theorem Gar.lawfulBut_endSettling (h : g.lawful) (hsettling : (g.channel c).phase.isSettling = true) :
    (g.endSettling c).lawfulBut c :=
  let hbut := Gar.lawfulBut_of_lawful h c
  ⟨hbut.1, Gar.sound_endSettling hbut.2.1 hsettling, fun d hd => by
    unfold Gar.ruleApplied
    rw [Gar.endSettling, Gar.channel_setChannel_of_ne _ hd]
    exact hbut.2.2 d hd⟩

/-! ### The requests -/

/-- New settings that keep the locked fields of a channel in use (R105). -/
theorem Gar.lawfulBut_setSettings {x : ChannelSettings} (h : g.lawful) (hsettle : x.settleLimit ≠ 0)
    (hage : x.ageLimit.toNat ≤ 15) (hfree : ((g.channel c).inUse && x.lockedDiffers (g.channel c).settings) = false) :
    (g.setChannel c { g.channel c with settings := x }).lawfulBut c := by
  obtain ⟨hrecords, hsound, hrules⟩ := Gar.lawfulBut_of_lawful h c
  refine ⟨hrecords, fun d => ?_, fun d hd => ?_⟩
  · by_cases hd : d = c
    swap
    · have hsame : (g.setChannel c { g.channel c with settings := x }).channel d = g.channel d :=
        Gar.channel_setChannel_of_ne _ hd
      refine Gar.channelSound_congr (hsound d) ?_ ?_ ?_ ?_ ?_ fun m => .inl (RequesterRecord.sameStanding_refl _) <;>
        rw [hsame]
    subst hd
    obtain ⟨⟨hnodup, hordered, hmembers, hpasses⟩, -, -, hholder, hsettling, hholdTimer, hsettleTimer⟩ := hsound d
    unfold Gar.channelSound Gar.phaseSound Gar.queueLawful
    rw [Gar.channel_setChannel_same]
    simp only
    rcases Bool.and_eq_false_iff.mp hfree with hidle | hlocked
    · simp only [ChannelRecord.inUse, Bool.or_eq_false_iff, decide_eq_false_iff_not, ne_eq, not_not,
        Bool.not_eq_eq_eq_not, Bool.not_false, List.isEmpty_iff] at hidle
      obtain ⟨hphase, hqueue⟩ := hidle
      rw [hphase] at hholdTimer hsettleTimer hholder
      rw [hqueue] at hmembers ⊢
      rw [hphase]
      refine ⟨⟨List.nodup_nil, List.Pairwise.nil, hmembers, nofun⟩, hsettle, hage, hholder, nofun, ?_, hsettleTimer⟩
      simpa [ChannelPhase.code] using hholdTimer
    · simp only [ChannelSettings.lockedDiffers, Bool.or_eq_false_iff, decide_eq_false_iff_not, ne_eq, not_not] at hlocked
      obtain ⟨⟨⟨⟨-, hpolicy⟩, hlimit⟩, -⟩, hages⟩ := hlocked
      rw [hpolicy, hlimit, hages]
      exact ⟨⟨hnodup, hordered, hmembers, hpasses⟩, hsettle, hages ▸ hage, hholder, hsettling, hholdTimer, hsettleTimer⟩
  · unfold Gar.ruleApplied
    rw [Gar.channel_setChannel_of_ne _ hd]
    exact hrules d hd

/-- What ASSIGN does to the settling of a requester's old channel: nothing, or the channel settles on without it (R108). -/
theorem Gar.releaseSettling_cases (next : Option Channel) :
    ((g.releaseSettling q next = g) ∧ ∀ d, (g.requester q).assigned = some d → (g.channel d).phase = .settling (some q) →
      next = some d) ∨
    ∃ d, (g.requester q).assigned = some d ∧ (g.channel d).phase = .settling (some q) ∧ next ≠ some d ∧
      g.releaseSettling q next = g.setChannel d { g.channel d with phase := .settling none } := by
  unfold Gar.releaseSettling
  cases hassigned : (g.requester q).assigned with
  | none => exact .inl ⟨rfl, nofun⟩
  | some own =>
      by_cases h : next ≠ some own ∧ (g.channel own).phase = .settling (some q)
      · exact .inr ⟨own, rfl, h.2, h.1, if_pos h⟩
      · refine .inl ⟨if_neg h, fun d hd hsettling => ?_⟩
        obtain rfl := Option.some.inj hd
        by_contra hne
        exact h ⟨hne, hsettling⟩

theorem Gar.sound_dropSettling {d : Channel} (h : g.sound) (hsettling : (g.channel d).phase = .settling (some q)) :
    (g.setChannel d { g.channel d with phase := .settling none }).sound := by
  intro e
  by_cases he : e = d
  · subst he
    obtain ⟨hqueue, hlimit, hage, hholder, -, hholdTimer, hsettleTimer⟩ := h e
    rw [hsettling] at hholder hholdTimer hsettleTimer
    unfold Gar.channelSound Gar.phaseSound
    rw [Gar.channel_setChannel_same]
    refine ⟨?_, hlimit, hage, fun m => ⟨nofun, fun hm => ?_⟩, fun m hm => ?_, hholdTimer, hsettleTimer⟩
    · unfold Gar.queueLawful at hqueue ⊢
      rw [Gar.channel_setChannel_same]
      exact hqueue
    · cases (hholder m).mpr hm
    · cases hm
  · refine Gar.channelSound_congr (h e) ?_ ?_ ?_ ?_ ?_ fun m => .inl (RequesterRecord.sameStanding_refl _) <;>
      rw [Gar.channel_setChannel_of_ne _ he]

/-- A BLOCKED requester is placed elsewhere: the settling it leaves goes on without it (R108). -/
theorem Gar.lawful_replace_blocked {reason : BlockReason} {next : Option Channel} {x : RequesterRecord} (h : g.lawful)
    (hblocked : (g.requester q).state = .blocked reason) (hx : x.lawful) (haway : ∀ d, x.awayFrom d)
    (hkept : ∀ d, next = some d → x.assigned = some d ∧ x.isBlocked = true) :
    ((g.releaseSettling q next).setRequester q x).lawful := by
  obtain ⟨hrecords, hsound, hrules⟩ := Gar.lawful_iff.mp h
  have hreplaced : ∀ g' : Gar, g'.sound → g'.requesters = g.requesters → (∀ d, g'.ruleApplied d) →
      (∀ d, (g'.channel d).phase = .settling (some q) → next = some d) → (g'.setRequester q x).lawful := by
    intro g' hsound' hsame hrules' hsettling
    have hrequester : ∀ m, g'.requester m = g.requester m := fun m => by rw [Gar.requester, hsame]; rfl
    rw [Gar.lawful_iff]
    refine ⟨fun m => ?_, Gar.sound_setRequester_away hsound' (fun d => ?_) haway fun d hd => hkept d (hsettling d hd),
      hrules'⟩
    · rw [Gar.requester_setRequester]
      split
      · exact hx
      · exact hrequester m ▸ hrecords m
    · exact RequesterRecord.awayFrom_of_blocked (by rw [hrequester]; exact hblocked) d
  rcases g.releaseSettling_cases (q := q) next with ⟨heq, hnext⟩ | ⟨d, hassigned, hsettling, -, heq⟩
  · rw [heq]
    exact hreplaced g hsound rfl hrules fun d hd => hnext d (Gar.assigned_of_settling hsound hd).1 hd
  · rw [heq]
    refine hreplaced _ (Gar.sound_dropSettling hsound hsettling) rfl (fun e => ?_) fun e he => ?_
    · unfold Gar.ruleApplied
      by_cases hed : e = d
      · subst hed
        rw [Gar.channel_setChannel_same]
        simp
      · rw [Gar.channel_setChannel_of_ne _ hed]
        exact hrules e
    · by_cases hed : e = d
      · subst hed
        rw [Gar.channel_setChannel_same] at he
        cases he
      · rw [Gar.channel_setChannel_of_ne _ hed] at he
        have := (Gar.assigned_of_settling hsound he).1
        rw [hassigned] at this
        exact absurd (Option.some.inj this).symm hed

/-- A requester that takes no part in arbitration is placed elsewhere. -/
theorem Gar.sound_replace_free {x : RequesterRecord} (h : g.sound) (hfree : (g.requester q).isFree) (hx : x.isFree) :
    (g.setRequester q x).sound :=
  Gar.sound_setRequester_away h (fun d => RequesterRecord.awayFrom_of_isFree hfree d)
    (fun d => RequesterRecord.awayFrom_of_isFree hx d) fun d hd => by
      have hblocked := (Gar.assigned_of_settling h hd).2
      rw [(RequesterRecord.flags_of_isFree hfree).2.2] at hblocked
      cases hblocked

theorem Gar.releaseSettling_of_free (next : Option Channel) (h : g.sound) (hfree : (g.requester q).isFree) :
    g.releaseSettling q next = g := by
  rcases g.releaseSettling_cases (q := q) next with ⟨heq, -⟩ | ⟨d, -, hsettling, -⟩
  · exact heq
  · have hblocked := (Gar.assigned_of_settling h hsettling).2
    rw [(RequesterRecord.flags_of_isFree hfree).2.2] at hblocked
    cases hblocked

/-- A requester that is not in a queue and holds no channel is free or BLOCKED. -/
theorem RequesterRecord.free_or_blocked {r : RequesterRecord} (h : r.state.isEngaged = false) :
    r.isFree ∨ ∃ reason, r.state = .blocked reason := by
  unfold RequesterRecord.isFree
  revert h
  cases r.state <;> simp [RequesterState.isEngaged]

theorem Gar.lawful_assign (f : AssignFields) (now : Time) (h : g.lawful)
    (hfree : (g.requester f.requester).state.isEngaged = false) : (g.assign f now).gar.lawful := by
  obtain ⟨hrecords, hsound, hrules⟩ := Gar.lawful_iff.mp h
  unfold Gar.assign
  cases hchannel : f.channel with
  | none =>
      rcases RequesterRecord.free_or_blocked hfree with hfree | ⟨reason, hblocked⟩
      · show (Gar.setRequester _ _ _).lawful
        rw [Gar.releaseSettling_of_free none hsound hfree, Gar.lawful_iff]
        refine ⟨fun m => ?_, Gar.sound_replace_free hsound hfree (.inl rfl), hrules⟩
        rw [Gar.requester_setRequester]
        split
        · exact RequesterRecord.lawful_detached rfl rfl
        · exact hrecords m
      · exact Gar.lawful_replace_blocked h hblocked (RequesterRecord.lawful_detached rfl rfl)
          (fun d => RequesterRecord.awayFrom_of_isFree (.inl rfl) d) nofun
  | some c =>
      simp only
      rcases RequesterRecord.free_or_blocked hfree with hfree | ⟨reason, hblocked⟩
      · have hplaced : ∀ x : RequesterRecord, x.assigned = some c → x.state = .idle →
            x.reqLevel = (g.requester f.requester).reqLevel →
            (Gar.grantTest
              (if (g.requester f.requester).reqLevel = .high then (g.setRequester f.requester x).enqueue c f.requester
              else g.setRequester f.requester x) c now).gar.lawful := by
          intro x hassigned hidle hreq
          have hsound' := Gar.sound_replace_free hsound hfree (.inr hidle)
          have hx : (g.setRequester f.requester x).requester f.requester = x := Gar.requester_setRequester_same ..
          refine Gar.lawful_grantTest now ?_
          split
          next hhigh =>
            exact Gar.lawfulBut_enqueue (Gar.lawfulBut_of_lawful h c) hsound'
              (fun m hm => Gar.requester_setRequester_of_ne x hm) (fun _ _ => rfl) (by rw [hx]; exact hassigned)
              (.inr (by rw [hx]; exact hidle)) (by rw [hx]; exact hreq.trans hhigh)
          next hlow =>
            have hlow : x.reqLevel = .low := by
              rw [hreq]
              cases hlevel : (g.requester f.requester).reqLevel with
              | low => rfl
              | high => exact absurd hlevel hlow
            exact Gar.lawfulBut_of_local (Gar.lawfulBut_of_lawful h c)
              (fun m hm => Gar.requester_setRequester_of_ne x hm) (fun _ _ => rfl)
              (by rw [hx]; exact RequesterRecord.lawful_of_low (by simp [hassigned]) hidle hlow) hsound'
        rcases hfree with hstate | hstate <;> rw [hstate] <;> exact hplaced _ rfl rfl rfl
      · rw [hblocked]
        refine Gar.lawful_grantTest now (Gar.lawfulBut_of_lawful (Gar.lawful_replace_blocked h hblocked ?_
          (fun d => RequesterRecord.awayFrom_of_blocked rfl d) ?_) c)
        · have hhigh := RequesterRecord.high_of_not_free (hrecords f.requester) (by simp [RequesterRecord.isFree, hblocked])
          exact RequesterRecord.lawful_of_high (by simp) hhigh (by simp [RequesterRecord.isFree])
        · intro d hd
          exact ⟨hd, rfl⟩

/-! ### Resets and the clock -/

/-- An arbiter at rest: every requester is free, and every channel has the working state of a reset. -/
theorem Gar.lawful_of_rest (hrecords : ∀ m, (g.requester m).lawful ∧ (g.requester m).isFree)
    (hchannels : ∀ d, ∃ x : ChannelSettings, x.settleLimit ≠ 0 ∧ x.ageLimit.toNat ≤ 15 ∧
      g.channel d = ChannelRecord.initial x) : g.lawful := by
  rw [Gar.lawful_iff]
  refine ⟨fun m => (hrecords m).1, fun d => ?_, fun d => ?_⟩ <;> obtain ⟨x, hsettle, hage, hd⟩ := hchannels d
  · have hflags := fun m => RequesterRecord.flags_of_isFree (hrecords m).2
    unfold Gar.channelSound Gar.phaseSound Gar.queueLawful
    rw [hd]
    refine ⟨⟨List.nodup_nil, List.Pairwise.nil, fun m => ?_, nofun⟩, hsettle, hage, fun m => ?_, nofun, ?_, ?_⟩
    · simp [ChannelRecord.initial, (hflags m).1]
    · simp [ChannelRecord.initial, (hflags m).2.1]
    · simp [ChannelRecord.initial, ChannelPhase.code]
    · simp [ChannelRecord.initial, ChannelPhase.code]
  · unfold Gar.ruleApplied
    rw [hd]
    simp [ChannelRecord.initial]

theorem Gar.requester_initial (req : Pins) (m : Requester) :
    (Gar.initial req).requester m = RequesterRecord.initial (req.read m) := Tbl.read_build ..

theorem Gar.channel_initial (req : Pins) (d : Channel) :
    (Gar.initial req).channel d = ChannelRecord.initial ChannelSettings.default := Tbl.read_fill ..

theorem Gar.lawful_initial (req : Pins) : (Gar.initial req).lawful := by
  refine Gar.lawful_of_rest (fun m => ?_) fun d => ⟨ChannelSettings.default, by decide, by decide, ?_⟩
  · rw [Gar.requester_initial]
    exact ⟨⟨iff_of_true rfl rfl, nofun, fun h => absurd rfl h⟩, .inl rfl⟩
  · exact Gar.channel_initial req d

theorem Gar.requester_cleared (m : Requester) : g.cleared.requester m = (g.requester m).cleared := Tbl.read_build ..

theorem Gar.channel_cleared (d : Channel) :
    g.cleared.channel d = ChannelRecord.initial (g.channel d).settings := Tbl.read_build ..

theorem RequesterRecord.lawful_cleared (r : RequesterRecord) : r.cleared.lawful ∧ r.cleared.isFree := by
  unfold RequesterRecord.cleared
  split
  next hassigned => exact ⟨RequesterRecord.lawful_detached hassigned rfl, .inl rfl⟩
  next hassigned => exact ⟨RequesterRecord.lawful_of_low (by simp [hassigned]) rfl rfl, .inr rfl⟩

theorem Gar.lawful_cleared (h : g.lawful) : g.cleared.lawful := by
  obtain ⟨-, hsound, -⟩ := Gar.lawful_iff.mp h
  refine Gar.lawful_of_rest (fun m => ?_) fun d => ⟨_, (hsound d).2.1, (hsound d).2.2.1, Gar.channel_cleared d⟩
  rw [Gar.requester_cleared]
  exact RequesterRecord.lawful_cleared _

theorem Gar.requester_released (req : Pins) (m : Requester) :
    (g.released req).requester m = (g.requester m).released (req.read m) := Tbl.read_build ..

/-- A free requester at the release is BLOCKED with reason RESET when it is assigned and its REQ is HIGH, and free
otherwise (R112). -/
theorem RequesterRecord.lawful_released {r : RequesterRecord} (h : r.lawful) (hfree : r.isFree) (req : Level) :
    (r.released req).lawful ∧ ∀ d, (r.released req).awayFrom d := by
  by_cases hblocked : r.assigned.isSome && decide (req = .high)
  · obtain ⟨hassigned, rfl⟩ : r.assigned.isSome = true ∧ req = .high := by simpa using hblocked
    have hstate : (r.released .high).state = .blocked .reset := if_pos hblocked
    exact ⟨RequesterRecord.lawful_of_high (Option.isSome_iff_ne_none.mp hassigned) rfl
      (by simp [RequesterRecord.isFree, hstate]), fun d => RequesterRecord.awayFrom_of_blocked hstate d⟩
  · have hstate : (r.released req).state = r.state := if_neg hblocked
    have hfree' : (r.released req).isFree := by
      unfold RequesterRecord.isFree
      rw [hstate]
      exact hfree
    refine ⟨?_, fun d => RequesterRecord.awayFrom_of_isFree hfree' d⟩
    rcases hfree with hdetached | hidle
    · exact RequesterRecord.lawful_detached (r := r.released req) (h.1.mp hdetached) (hstate.trans hdetached)
    · have hassigned : r.assigned ≠ none := fun hnone => by
        rw [h.1.mpr hnone] at hidle
        cases hidle
      have hlow : req = .low := by
        cases req with
        | low => rfl
        | high => simp [Option.isSome_iff_ne_none, hassigned] at hblocked
      exact RequesterRecord.lawful_of_low (r := r.released req) hassigned (hstate.trans hidle) hlow

theorem Gar.lawful_released (req : Pins) (h : g.lawful) (hfree : ∀ m, (g.requester m).isFree) :
    (g.released req).lawful := by
  obtain ⟨hrecords, hsound, hrules⟩ := Gar.lawful_iff.mp h
  rw [Gar.lawful_iff]
  refine ⟨fun m => ?_, fun d => Gar.channelSound_congr (hsound d) rfl rfl rfl Iff.rfl Iff.rfl fun m => .inr ?_, hrules⟩
  · rw [Gar.requester_released]
    exact (RequesterRecord.lawful_released (hrecords m) (hfree m) _).1
  · rw [Gar.requester_released]
    refine ⟨RequesterRecord.awayFrom_of_isFree (hfree m) d,
      (RequesterRecord.lawful_released (hrecords m) (hfree m) _).2 d, fun hd => ?_⟩
    have hblocked := (Gar.assigned_of_settling hsound hd).2
    rw [(RequesterRecord.flags_of_isFree (hfree m)).2.2] at hblocked
    cases hblocked

theorem MsTimer.tick_eq_stopped {t : MsTimer} : t.tick = .stopped ↔ t = .stopped := by
  cases t <;> simp [MsTimer.tick]

theorem Gar.lawful_ticked (h : g.lawful) :
    Gar.lawful { g with channels := Tbl.build fun c => (g.channels.read c).tick } := by
  obtain ⟨hrecords, hsound, hrules⟩ := Gar.lawful_iff.mp h
  have hchannel : ∀ d, Gar.channel { g with channels := Tbl.build fun c => (g.channels.read c).tick } d =
      (g.channel d).tick := fun d => Tbl.read_build ..
  rw [Gar.lawful_iff]
  refine ⟨hrecords, fun d => Gar.channelSound_congr (hsound d) ?_ ?_ ?_ ?_ ?_ fun m =>
    .inl (RequesterRecord.sameStanding_refl _), fun d => ?_⟩
  · rw [hchannel]; rfl
  · rw [hchannel]; rfl
  · rw [hchannel]; rfl
  · rw [hchannel]; exact MsTimer.tick_eq_stopped
  · rw [hchannel]; exact MsTimer.tick_eq_stopped
  · unfold Gar.ruleApplied
    rw [hchannel]
    exact hrules d

/-! ### Every step -/

variable {s t : State}

/-- The law of the arbiter looks at the GAR and the mode alone. -/
theorem State.grantsLawful_of_same (h : s.grantsLawful) (hgar : t.gar = s.gar) (hmode : t.tbu.mode = s.tbu.mode) :
    t.grantsLawful := by
  unfold State.grantsLawful
  rw [hgar, hmode]
  exact h

/-- Out of reset, the law of the arbiter is that of the GAR. -/
theorem State.grantsLawful_of_running (h : t.gar.lawful) (hmode : t.tbu.mode = .running) : t.grantsLawful :=
  ⟨h, fun hnot => absurd hmode hnot⟩

theorem State.running_of_live (h : s.live = true) : s.tbu.mode = .running := by
  simp only [State.live, Bool.and_eq_true, decide_eq_true_eq] at h
  exact h.1

/-- A live part after an event at the GAR. -/
theorem State.grantsLawful_applyGar {x : GarStep} (hx : x.gar.lawful) (hlive : s.live = true) :
    (s.applyGar x).grantsLawful ∧ (s.applyGar x).evaluate.grantsLawful :=
  ⟨State.grantsLawful_of_running hx (State.running_of_live hlive),
    State.grantsLawful_of_running hx (State.running_of_live hlive)⟩

theorem State.grantsLawful_powerOn (mode : Mode) (req : Pins) : (State.powerOn mode req).grantsLawful :=
  ⟨Gar.lawful_initial req, fun _ m => .inl (congrArg RequesterRecord.state (Gar.requester_initial req m))⟩

theorem State.takePosts_frame : s.takePosts.gar = s.gar ∧ s.takePosts.tbu = s.tbu ∧ s.takePosts.pending = s.pending ∧
    s.takePosts.ald = s.ald ∧ s.takePosts.mlk.buffer = s.mlk.buffer := by
  refine State.takePosts_keeps (P := fun t => t.gar = s.gar ∧ t.tbu = s.tbu ∧ t.pending = s.pending ∧ t.ald = s.ald ∧
    t.mlk.buffer = s.mlk.buffer) ⟨rfl, rfl, rfl, rfl, rfl⟩ fun t p h => ?_
  obtain ⟨hpending, htbu, hgar, hald, hbuffer, -⟩ := t.takePost_frame p
  rw [hpending, htbu, hgar, hald, hbuffer]
  exact h

theorem OwnerEffect.keeps_grants {a : Answer} (h : s.grantsLawful) (hmode : s.tbu.mode = .running)
    (ha : OwnerEffect s a) : a.state.grantsLawful := by
  cases ha with
  | unbound source fields =>
      obtain ⟨hgar, htbu, -⟩ := State.takePosts_frame (s := s)
      exact State.grantsLawful_of_same h hgar (congrArg Tbu.mode htbu)
  | channelSet channel settings fields hsettle hage hfree =>
      exact State.grantsLawful_of_running (Gar.lawful_grantTest s.now (Gar.lawfulBut_setSettings h.1 hsettle hage hfree))
        hmode
  | assigned f fields hfree => exact State.grantsLawful_of_running (Gar.lawful_assign f s.now h.1 hfree) hmode
  | revoked channel fields => exact State.grantsLawful_of_running (Gar.lawful_takeBack .revoke s.now h.1) hmode
  | _ => exact State.grantsLawful_of_same h rfl rfl

theorem State.grantsLawful_startNext (h : s.grantsLawful) : s.startNext.grantsLawful :=
  State.grantsLawful_of_same h (State.gar_startNext s) (congrArg Tbu.mode (State.tbu_startNext s))

theorem State.Effect.keeps_grants (h : s.grantsLawful) (he : s.Effect t) : t.grantsLawful := by
  cases he with
  | powerOnHigh req =>
      exact State.grantsLawful_startNext (State.grantsLawful_of_same (State.grantsLawful_powerOn .running req) rfl rfl)
  | powerOnLow req => exact State.grantsLawful_of_same (State.grantsLawful_powerOn .resetLow req) rfl rfl
  | supplyDip => exact State.grantsLawful_of_same (State.grantsLawful_powerOn .powerOnReset (Tbl.fill 12 .low)) rfl rfl
  | enterReset =>
      refine ⟨Gar.lawful_cleared h.1, fun _ m => ?_⟩
      have hfree : (s.gar.cleared.requester m).isFree := by
        rw [Gar.requester_cleared]
        exact (RequesterRecord.lawful_cleared _).2
      exact hfree
  | leaveReset req hlow =>
      refine State.grantsLawful_startNext (State.grantsLawful_of_running (Gar.lawful_released req h.1 ?_) rfl)
      exact h.2 (by rw [hlow]; nofun)
  | sampled src =>
      obtain ⟨_, _, heq⟩ := s.sample_eq src
      rw [heq]
      exact State.grantsLawful_of_same h rfl rfl
  | channelSampled channel req done hlive =>
      exact (State.grantsLawful_applyGar (Gar.lawful_sampleEvent req done s.now h.1) hlive).2
  | holdExpired channel hlive hdue =>
      exact (State.grantsLawful_applyGar (Gar.lawful_takeBack .holdTimeout s.now h.1) hlive).2
  | settleExpired channel hlive hsettling =>
      exact (State.grantsLawful_applyGar (Gar.lawful_grantTest s.now (Gar.lawfulBut_endSettling h.1 hsettling))
        hlive).1
  | request kind f a hlive hnext hkind howner =>
      have htaken : s.takeFrame.grantsLawful := State.grantsLawful_of_same h rfl rfl
      exact State.grantsLawful_of_same (howner.keeps_grants htaken (State.running_of_live hlive))
        (State.finish_gar f a) (congrArg Tbu.mode (State.finish_tbu f a))
  | tick => exact ⟨Gar.lawful_ticked h.1, h.2⟩
  | postTaken | recoveredStarting | badKind | duplicate | frameSent | roundBegun =>
      exact State.grantsLawful_startNext (State.grantsLawful_of_same h rfl rfl)
  | _ => exact State.grantsLawful_of_same h rfl rfl

/-- Settles O57: the grant rule is the one clause that an event may break, at its own channel and until the grant test at its
end (`Gar.lawfulBut`); each transition of a requester and its channel keeps the rest, and is no matter of the other
channels. -/
theorem stepKeepsGrantLaw : Obligations.StepKeepsGrantLaw := by
  intro s t hs hstep
  exact step_keeps (P := State.grantsLawful) (fun _ _ h => h) (fun _ _ => State.Effect.keeps_grants) hs hstep

end Sys2Proof.Machine
end

section
/-! The internal sources: their conditions, their evaluation, and that every step leaves their levels at their conditions
(R12 to R15). -/

namespace Sys2Proof.Machine

variable {s t : State} {g : Gar} {c : Channel} {q : Requester}

/-! ### The conditions -/

theorem RequesterRecord.isBlocked_iff {r : RequesterRecord} : r.isBlocked = true ↔ ∃ reason, r.state = .blocked reason := by
  unfold RequesterRecord.isBlocked
  cases r.state <;> simp

theorem Gar.hasBlocked_iff : g.hasBlocked c = true ↔ ∃ (q : Requester) (reason : BlockReason),
    (g.requester q).assigned = some c ∧ (g.requester q).state = .blocked reason := by
  simp only [Gar.hasBlocked, List.any_eq_true, mem_allOf, true_and, Bool.and_eq_true, decide_eq_true_eq,
    RequesterRecord.isBlocked_iff, ← exists_and_left]
  rfl

theorem Nq.lossOutstanding_iff {n : Nq} : n.lossOutstanding = true ↔ n.lossCount ≠ 0 ∨ ∃ e ∈ n.queue, e.isLoss = true := by
  have hpos : 0 < n.lossCount.toNat ↔ n.lossCount ≠ 0 := by
    rw [Nat.pos_iff_ne_zero, not_iff_not]
    exact ⟨fun h => BitVec.eq_of_toNat_eq h, fun h => by rw [h]; rfl⟩
  simp [Nq.lossOutstanding, hpos]

theorem State.conditionLevel_eq_high {i : Internal} : s.conditionLevel i = .high ↔ s.condition i = true := by
  unfold State.conditionLevel
  split <;> simp_all

/-- S24 to S27 follow the BLOCKED requesters of their channels (R13). -/
theorem State.condition_of_channel {i : Internal} (h : i.val = c.val) : s.condition i = s.gar.hasBlocked c := by
  have hlt : i.val < 4 := h ▸ c.isLt
  have hc : (⟨i.val, hlt⟩ : Channel) = c := Fin.ext h
  rw [State.condition, dif_pos hlt, hc]

theorem State.condition_loss : s.condition 4 = s.nq.lossOutstanding := rfl

theorem State.condition_stalled : s.condition 5 = decide (s.mlk.sender.link = .stalled) := rfl

/-- The conditions look at the BLOCKED requesters, the outstanding loss and the link state alone. -/
theorem State.conditionLevel_congr (hblocked : ∀ c, t.gar.hasBlocked c = s.gar.hasBlocked c)
    (hloss : t.nq.lossOutstanding = s.nq.lossOutstanding) (hlink : t.mlk.sender.link = s.mlk.sender.link) :
    t.conditionLevel = s.conditionLevel := by
  funext i
  unfold State.conditionLevel State.condition
  simp only [hblocked, hloss, hlink]

theorem State.internalAgrees_of_same (h : s.internalAgrees) (hinternal : t.scu.internal = s.scu.internal)
    (hblocked : ∀ c, t.gar.hasBlocked c = s.gar.hasBlocked c) (hloss : t.nq.lossOutstanding = s.nq.lossOutstanding)
    (hlink : t.mlk.sender.link = s.mlk.sender.link) : t.internalAgrees := by
  unfold State.internalAgrees
  rw [State.conditionLevel_congr hblocked hloss hlink, hinternal]
  exact h

/-- The evaluation brings every level to its condition. -/
theorem State.internalAgrees_evaluate (s : State) : s.evaluate.internalAgrees := fun _ => Tbl.read_build ..

/-- With no BLOCKED requester, no loss and a RUNNING link every condition is false. -/
theorem State.internalAgrees_of_rest (hinternal : t.scu.internal = Tbl.fill 6 .low)
    (hblocked : ∀ m, (t.gar.requester m).isFree) (hloss : t.nq.lossOutstanding = false)
    (hlink : t.mlk.sender.link = .running) : t.internalAgrees := by
  have hnone : ∀ c, t.gar.hasBlocked c = false := fun c => by
    by_contra h
    obtain ⟨m, reason, -, hstate⟩ := Gar.hasBlocked_iff.mp (by simpa using h)
    have := (RequesterRecord.flags_of_isFree (hblocked m)).2.2
    rw [RequesterRecord.isBlocked_iff.mpr ⟨reason, hstate⟩] at this
    cases this
  intro i
  simp [State.conditionLevel, State.condition, hnone, hloss, hlink, hinternal]

/-! ### What the grant test leaves blocked -/

theorem Gar.hasBlocked_congr {g' : Gar} (h : ∀ m, (g'.requester m).assigned = (g.requester m).assigned ∧
    (g'.requester m).isBlocked = (g.requester m).isBlocked) (c : Channel) : g'.hasBlocked c = g.hasBlocked c := by
  have hb : ∀ m, (g'.requesters.read m).isBlocked = (g.requesters.read m).isBlocked := fun m => (h m).2
  have ha : ∀ m, (g'.requesters.read m).assigned = (g.requesters.read m).assigned := fun m => (h m).1
  simp only [Gar.hasBlocked, ha, hb]

@[simp] theorem RequesterRecord.isBlocked_pass (r : RequesterRecord) (limit : Nat) :
    RequesterRecord.isBlocked { r with state := r.state.pass limit } = r.isBlocked := by
  unfold RequesterRecord.isBlocked
  cases r.state with
  | waiting passes promoted => cases promoted <;> rfl
  | _ => rfl

/-- The grant test leaves the BLOCKED requesters as they are: it grants to one that waits. -/
theorem Gar.hasBlocked_grantTest (now : Time) (h : g.sound) (d : Channel) :
    (g.grantTest c now).gar.hasBlocked d = g.hasBlocked d := by
  rcases g.grantTest_cases c now with ⟨-, heq⟩ | ⟨q, rest, -, hqueue, heq⟩
  · rw [heq]
    rfl
  · rw [heq, Gar.gar_grant]
    refine (Gar.hasBlocked_congr (g := g.taken c q rest now) (fun m => ?_) d).trans
      (Gar.hasBlocked_congr (fun m => ?_) d)
    · by_cases hages : ((g.taken c q rest now).channel c).settings.ages
      · rw [Gar.requester_age hages]
        split
        · exact ⟨rfl, RequesterRecord.isBlocked_pass _ _⟩
        · exact ⟨rfl, rfl⟩
      · rw [Gar.age_of_not_ages hages]
        exact ⟨rfl, rfl⟩
    · by_cases hm : m = q
      · subst hm
        have hwaiting := (((h c).1.2.2.1 m).mp (hqueue ▸ List.mem_cons_self)).2
        rw [Gar.requester_taken_same]
        refine ⟨rfl, ?_⟩
        unfold RequesterRecord.isBlocked
        revert hwaiting
        cases (g.requester m).state <;> simp [RequesterState.isWaiting]
      · rw [g.requester_taken_of_ne c rest now hm]
        exact ⟨rfl, rfl⟩

/-! ### What starting a frame leaves outstanding -/

/-- Changing the first match keeps a property that the change does not touch. -/
theorem any_updateFirst {α : Type} {p q : α → Bool} {f : α → α} (h : ∀ x, q (f x) = q x) (l : List α) :
    (updateFirst p f l).any q = l.any q := by
  induction l with
  | nil => rfl
  | cons x rest ih => by_cases hx : p x = true <;> simp [updateFirst, hx, h, ih]

theorem State.startNext_conditions (s : State) :
    s.startNext.nq.lossOutstanding = s.nq.lossOutstanding ∧ s.startNext.mlk.sender.link = s.mlk.sender.link := by
  rcases s.startNext_cases with h | ⟨h, -⟩ | ⟨-, -, -, ⟨number, rest, -, h⟩ | ⟨e, -, -, h⟩⟩ <;> rw [h]
  · exact ⟨rfl, rfl⟩
  · exact ⟨rfl, rfl⟩
  · exact ⟨rfl, rfl⟩
  · refine ⟨congrArg (decide (0 < s.nq.lossCount.toNat) || ·) ?_, rfl⟩
    rw [State.firstSending_nq]
    exact any_updateFirst (q := Entry.isLoss) (f := Entry.numbered s.offered) (fun _ => rfl) s.nq.queue

theorem State.internalAgrees_startNext (h : s.internalAgrees) : s.startNext.internalAgrees := by
  obtain ⟨hloss, hlink⟩ := s.startNext_conditions
  exact State.internalAgrees_of_same h (congrArg Scu.internal (State.scu_startNext s))
    (fun c => by rw [State.gar_startNext]) hloss hlink

/-! ### Every step -/

theorem State.powerOn_internalAgrees (mode : Mode) (req : Pins) : (State.powerOn mode req).internalAgrees :=
  State.internalAgrees_of_rest rfl (fun m => .inl (congrArg RequesterRecord.state (Gar.requester_initial req m))) rfl rfl

theorem State.internalAgrees_applyRtu (x : RtuStep) (h : s.internalAgrees) : (s.applyRtu x).internalAgrees :=
  State.internalAgrees_of_same h rfl (fun _ => rfl) rfl rfl

theorem State.internalAgrees_applyGar {x : GarStep} (h : s.internalAgrees)
    (hblocked : ∀ c, x.gar.hasBlocked c = s.gar.hasBlocked c) : (s.applyGar x).internalAgrees :=
  State.internalAgrees_of_same h rfl hblocked rfl rfl

theorem OwnerEffect.keeps_internal {a : Answer} (hgrants : s.grantsLawful) (h : s.internalAgrees)
    (ha : OwnerEffect s a) : a.state.internalAgrees := by
  obtain ⟨-, hsound, -⟩ := Gar.lawful_iff.mp hgrants.1
  cases ha with
  | bound f fields =>
      exact State.internalAgrees_applyRtu _
        (State.internalAgrees_of_same h (Scu.internal_changeFilter ..) (fun _ => rfl) rfl rfl)
  | masked source fields => exact State.internalAgrees_applyRtu _ h
  | unmasked source fields => exact State.internalAgrees_applyRtu _ h
  | served source fields => exact State.internalAgrees_applyRtu _ h
  | channelSet channel settings fields hsettle hage hfree =>
      have hbut := Gar.lawfulBut_setSettings hgrants.1 hsettle hage hfree
      exact State.internalAgrees_applyGar h fun d => Gar.hasBlocked_grantTest s.now hbut.2.1 d
  | unbound | assigned | revoked | acknowledged | resynced => exact State.internalAgrees_evaluate _
  | _ => exact State.internalAgrees_of_same h rfl (fun _ => rfl) rfl rfl

theorem State.Effect.keeps_internal (hgrants : s.grantsLawful) (h : s.internalAgrees) (he : s.Effect t) :
    t.internalAgrees := by
  cases he with
  | powerOnHigh req =>
      exact State.internalAgrees_startNext
        (State.internalAgrees_of_same (State.powerOn_internalAgrees .running req) rfl (fun _ => rfl) rfl rfl)
  | powerOnLow req =>
      exact State.internalAgrees_of_same (State.powerOn_internalAgrees .resetLow req) rfl (fun _ => rfl) rfl rfl
  | supplyDip =>
      exact State.internalAgrees_of_same (State.powerOn_internalAgrees .powerOnReset (Tbl.fill 12 .low)) rfl
        (fun _ => rfl) rfl rfl
  | enterReset =>
      refine State.internalAgrees_of_rest rfl (fun m => ?_) rfl rfl
      have hfree := (RequesterRecord.lawful_cleared (s.gar.requester m)).2
      rw [← Gar.requester_cleared] at hfree
      exact hfree
  | sampled src =>
      obtain ⟨_, _, heq⟩ := s.sample_eq src
      rw [heq]
      exact State.internalAgrees_of_same h rfl (fun _ => rfl) rfl rfl
  | reportTaken source => exact State.internalAgrees_applyRtu _ h
  | settleExpired channel hlive hsettling =>
      have hbut := Gar.lawfulBut_endSettling hgrants.1 hsettling
      exact State.internalAgrees_applyGar h fun d => Gar.hasBlocked_grantTest s.now hbut.2.1 d
  | received m hm =>
      refine State.internalAgrees_of_same h rfl (fun _ => rfl) rfl ?_
      exact congrArg Sender.link hm.sender_eq
  | request kind f a hlive hnext hkind howner =>
      have htaken : s.takeFrame.internalAgrees := State.internalAgrees_of_same h rfl (fun _ => rfl) rfl rfl
      have hgrants' : s.takeFrame.grantsLawful := State.grantsLawful_of_same hgrants rfl rfl
      exact State.internalAgrees_startNext
        (State.internalAgrees_of_same (howner.keeps_internal hgrants' htaken) rfl (fun _ => rfl) rfl rfl)
  | frameSent =>
      exact State.internalAgrees_startNext (State.internalAgrees_of_same h rfl (fun _ => rfl) rfl
        (congrArg Sender.link s.mlk.sender_endFrame))
  | channelSampled | holdExpired | recovered | stalled => exact State.internalAgrees_evaluate _
  | leaveReset | postTaken | recoveredStarting =>
      exact State.internalAgrees_startNext (State.internalAgrees_evaluate _)
  | badKind | duplicate | roundBegun =>
      exact State.internalAgrees_startNext (State.internalAgrees_of_same h rfl (fun _ => rfl) rfl rfl)
  | _ => exact State.internalAgrees_of_same h rfl (fun _ => rfl) rfl rfl

/-- Settles O58: an event that can change a condition is followed by an evaluation or starts from a reset; the grant test,
which is not, leaves the BLOCKED requesters as they are by the law of the arbiter. -/
theorem stepKeepsInternalLevels : Obligations.StepKeepsInternalLevels := by
  intro s t hgrants hs hstep
  exact (step_keeps (P := fun s => s.grantsLawful ∧ s.internalAgrees) (fun _ _ h => h)
    (fun _ _ h he => ⟨he.keeps_grants h.1, he.keeps_internal h.1 h.2⟩) ⟨hgrants, hs⟩ hstep).2

/-! ### The evaluation -/

theorem Internal.toSource_injective : Function.Injective Internal.toSource := fun i j h => Fin.ext (by
  have := Fin.mk.inj h
  omega)

/-- The reports that an evaluation makes. -/
def State.newInternalReports (s : State) : List LevelReport :=
  ((allOf 6).filter fun i => !decide (s.scu.internal.read i = s.conditionLevel i)).map s.internalReport

theorem State.nodup_source_newInternalReports (s : State) : (s.newInternalReports.map LevelReport.source).Nodup := by
  rw [State.newInternalReports, List.map_map]
  exact (nodup_allOf.filter _).map Internal.toSource_injective

theorem State.mem_newInternalReports {rep : LevelReport} : rep ∈ s.newInternalReports ↔
    ∃ i : Internal, s.scu.internal.read i ≠ s.conditionLevel i ∧
      rep = { source := Internal.toSource i, new := s.conditionLevel i, previous := .known (s.scu.internal.read i),
              time := s.tbu.hubClock } := by
  simp only [State.newInternalReports, List.mem_map, List.mem_filter, mem_allOf, true_and, Bool.not_eq_eq_eq_not,
    Bool.not_true, decide_eq_false_iff_not, @eq_comm _ rep]
  rfl

/-- Settles O13: the conditions one by one, and the reports of an evaluation, one for each level that changes. -/
theorem internalSourcesFollowConditions : Obligations.InternalSourcesFollowConditions := by
  intro s
  refine ⟨fun i c h => ?_, ?_, ?_, s.newInternalReports, rfl, s.nodup_source_newInternalReports,
    fun _ => State.mem_newInternalReports⟩
  · rw [State.conditionLevel_eq_high, State.condition_of_channel h, Gar.hasBlocked_iff]
  · rw [State.conditionLevel_eq_high, State.condition_loss, Nq.lossOutstanding_iff]
  · rw [State.conditionLevel_eq_high, State.condition_stalled, decide_eq_true_eq]

end Sys2Proof.Machine
end

section
/-! The law of the binding table and the pending sets, and the law of levels, under every event at the RTU (R17 to R58). -/

namespace Sys2Proof.Machine

variable {r : Rtu} {source : Source} {l : Line}

/-! ### What an event changes -/

/-- What an event of a source does to the table: nothing, held or again is set, or the source joins (R42 to R45). -/
theorem Rtu.event_cases (r : Rtu) (p : SourcePost) : (r.event p).rtu = r ∨
    ((r.record p.source).status ≠ .unbound ∧ (r.record p.source).mask = true ∧
      (r.event p).rtu = r.setRecord p.source { r.record p.source with held := true }) ∨
    (∃ l, (r.record p.source).status = .pending ∧ (r.record p.source).mask = false ∧
      (r.record p.source).target = .line l ∧
      (r.event p).rtu = r.setRecord p.source { r.record p.source with again := true }) ∨
    ∃ l, (r.record p.source).status = .idle ∧ (r.record p.source).mask = false ∧ (r.record p.source).target = .line l ∧
      (r.event p).rtu = r.join p.source l := by
  cases hmask : (r.record p.source).mask with
  | true =>
      by_cases hbound : (r.record p.source).status = .unbound
      · left
        simp [Rtu.event, BindingRecord.isBound, hbound, RtuStep.quiet]
      · exact .inr (.inl ⟨hbound, rfl, congrArg RtuStep.rtu (Rtu.event_of_masked hbound hmask)⟩)
  | false =>
      cases hstatus : (r.record p.source).status with
      | unbound =>
          left
          simp [Rtu.event, BindingRecord.isBound, hstatus, RtuStep.quiet]
      | idle =>
          cases htarget : (r.record p.source).target with
          | reportOnly =>
              exact .inl (congrArg RtuStep.rtu (Rtu.event_of_reportOnly (by simp [hstatus]) hmask htarget))
          | line l =>
              exact .inr (.inr (.inr ⟨l, rfl, rfl, rfl, congrArg RtuStep.rtu (Rtu.event_of_idle hstatus hmask htarget)⟩))
      | pending =>
          cases htarget : (r.record p.source).target with
          | reportOnly =>
              exact .inl (congrArg RtuStep.rtu (Rtu.event_of_reportOnly (by simp [hstatus]) hmask htarget))
          | line l =>
              exact .inr (.inr (.inl
                ⟨l, rfl, rfl, rfl, congrArg RtuStep.rtu (Rtu.event_of_pending hstatus hmask htarget)⟩))

theorem Rtu.record_setRecord_of_ne {m : Source} (x : BindingRecord) (h : m ≠ source) :
    (r.setRecord source x).record m = r.record m := (Rtu.record_setRecord ..).trans (if_neg h)

theorem Rtu.record_join_of_ne {m : Source} (h : m ≠ source) : (r.join source l).record m = r.record m :=
  (Rtu.record_join ..).trans (if_neg h)

theorem Rtu.record_leave_of_ne {m : Source} (h : m ≠ source) : (r.leave source l).record m = r.record m :=
  (Rtu.record_leave ..).trans (if_neg h)

/-- An event is no matter of the other sources, and takes no report. -/
theorem Rtu.event_frame (r : Rtu) (p : SourcePost) :
    (∀ m, m ≠ p.source → (r.event p).rtu.record m = r.record m) ∧ (r.event p).rtu.reports = r.reports := by
  rcases r.event_cases p with h | ⟨-, -, h⟩ | ⟨l, -, -, -, h⟩ | ⟨l, -, -, -, h⟩ <;> rw [h]
  · exact ⟨fun _ _ => rfl, rfl⟩
  · exact ⟨fun m hm => Rtu.record_setRecord_of_ne _ hm, rfl⟩
  · exact ⟨fun m hm => Rtu.record_setRecord_of_ne _ hm, rfl⟩
  · exact ⟨fun m hm => Rtu.record_join_of_ne hm, rfl⟩

/-- A report is judged to be an event of its source, or has no effect. -/
theorem Rtu.takeReport_cases (r : Rtu) (rep : LevelReport) : r.takeReport rep = RtuStep.quiet r ∨
    r.takeReport rep = r.event { source := rep.source, level := rep.new, time := rep.time } := by
  unfold Rtu.takeReport
  split
  · exact .inr rfl
  · exact .inl rfl

/-- What every event and every list of reports keeps, the waiting reports of a source keep when they are taken. -/
theorem Rtu.takeReportsOf_keeps {P : Rtu → Prop}
    (hreports : ∀ r reports, (∀ rep ∈ reports, rep ∈ r.reports) → P r → P { r with reports := reports })
    (hevent : ∀ r (p : SourcePost), p.source = source → P r → P (r.event p).rtu) (h : P r) :
    P (r.takeReportsOf source).rtu := by
  unfold Rtu.takeReportsOf
  have hof : ∀ rep ∈ r.reports.filter fun rep => decide (rep.source = source), rep.source = source := fun rep hrep => by
    simpa using (List.mem_filter.mp hrep).2
  have hstart : P (RtuStep.quiet { r with reports := r.reports.filter fun rep => !decide (rep.source = source) }).rtu :=
    hreports _ _ (fun _ => List.mem_of_mem_filter) h
  generalize RtuStep.quiet { r with reports := r.reports.filter fun rep => !decide (rep.source = source) } = x at hstart
  generalize r.reports.filter (fun rep => decide (rep.source = source)) = reports at hof
  induction reports generalizing x with
  | nil => exact hstart
  | cons rep rest ih =>
      refine ih _ ?_ fun rep hrep => hof rep (by simp [hrep])
      show P (x.rtu.takeReport rep).rtu
      rcases x.rtu.takeReport_cases rep with hx | hx <;> rw [hx]
      · exact hstart
      · exact hevent _ _ (hof rep (by simp)) hstart

theorem Rtu.takeReportsIf_keeps {P : Rtu → Prop} (reads : Bool)
    (hreports : ∀ r reports, (∀ rep ∈ reports, rep ∈ r.reports) → P r → P { r with reports := reports })
    (hevent : ∀ r (p : SourcePost), p.source = source → P r → P (r.event p).rtu) (h : P r) :
    P (r.takeReportsIf reads source).rtu := by
  unfold Rtu.takeReportsIf
  split
  · exact Rtu.takeReportsOf_keeps hreports hevent h
  · exact h

/-! ### The law of the table under each change -/

theorem SourceStatus.eq_idle {x : SourceStatus} (hbound : x ≠ .unbound) (hpending : x ≠ .pending) : x = .idle := by
  cases x with
  | unbound => exact absurd rfl hbound
  | idle => rfl
  | pending => exact absurd rfl hpending

/-- A record is replaced by one with the same place in the sets. -/
theorem Rtu.lawful_setRecord {x : BindingRecord} (h : r.lawful) (hx : x.lawful source)
    (hplace : x.status = (r.record source).status ∧ x.target = (r.record source).target ∧
        x.priority = (r.record source).priority ∨
      (r.record source).status ≠ .pending ∧ x.status ≠ .pending) : (r.setRecord source x).lawful := by
  obtain ⟨hrecords, hmembers, hnodup, hordered⟩ := h
  refine ⟨fun m => ?_, fun k m => ?_, hnodup, fun k => ?_⟩
  · rw [Rtu.record_setRecord]
    split
    next hm => exact hm ▸ hx
    next => exact hrecords m
  · rw [Rtu.sets_setRecord, hmembers k m, Rtu.record_setRecord]
    split
    next hm =>
      subst hm
      rcases hplace with ⟨hstatus, htarget, -⟩ | ⟨hbefore, hafter⟩
      · rw [hstatus, htarget]
      · simp [hbefore, hafter]
    next => rfl
  · have hpriority : ∀ m ∈ r.sets.read k, ((r.setRecord source x).record m).priority = (r.record m).priority := by
      intro m hm
      rw [Rtu.record_setRecord]
      split
      next hms =>
        subst hms
        rcases hplace with ⟨-, -, hpriority⟩ | ⟨hbefore, -⟩
        · exact hpriority
        · exact absurd ((hmembers k m).mp hm).1 hbefore
      next => rfl
    refine (hordered k).imp_of_mem fun {m n} hm hn hmn => ?_
    rw [hpriority m hm, hpriority n hn]
    exact hmn

/-- An unmasked IDLE source joins its line's set at the tail of its band (R39). -/
theorem Rtu.lawful_join (h : r.lawful) (hidle : (r.record source).status = .idle)
    (hmask : (r.record source).mask = false) (htarget : (r.record source).target = .line l) :
    (r.join source l).lawful := by
  obtain ⟨hrecords, hmembers, hnodup, hordered⟩ := h
  have hout : ∀ k, source ∉ r.sets.read k := fun k hin => by
    have := ((hmembers k source).mp hin).1
    rw [hidle] at this
    cases this
  have hpriority : ∀ m, ((r.join source l).record m).priority = (r.record m).priority := fun m => by
    rw [Rtu.record_join]
    split
    next hm => rw [hm]
    next => rfl
  obtain ⟨ahead, behind, ⟨hset, hahead, hbehind⟩, hjoined⟩ := r.sets_join_same source l (hordered l)
  refine ⟨fun m => ?_, fun k m => ?_, fun k => ?_, fun k => ?_⟩
  · rw [Rtu.record_join]
    split
    next hm =>
      subst hm
      obtain ⟨-, -, hinternal, -, hheld, -⟩ := hrecords m
      exact ⟨nofun, fun _ ht => absurd (htarget.symm.trans ht) (by simp), hinternal, fun hm => by simp [hmask] at hm, hheld,
        fun _ => rfl⟩
    next => exact hrecords m
  · by_cases hk : k = l
    · subst hk
      rw [hjoined]
      have hmem : m ∈ ahead ++ source :: behind ↔ m = source ∨ m ∈ r.sets.read k := by
        rw [hset]
        simp only [List.mem_append, List.mem_cons]
        tauto
      rw [hmem, Rtu.record_join]
      split
      next hm => simp [hm, htarget]
      next hm => rw [hmembers k m]; simp [hm]
    · rw [r.sets_join_of_ne source hk, hmembers k m, Rtu.record_join]
      split
      next hm =>
        subst hm
        simp [hidle, htarget, Ne.symm hk]
      next => rfl
  · by_cases hk : k = l
    · subst hk
      rw [hjoined, List.nodup_middle, ← hset, List.nodup_cons]
      exact ⟨hout k, hnodup k⟩
    · rw [r.sets_join_of_ne source hk]
      exact hnodup k
  · simp only [hpriority]
    by_cases hk : k = l
    · subst hk
      have hold := hordered k
      rw [hset] at hold
      obtain ⟨h1, h2, h12⟩ := List.pairwise_append.mp hold
      rw [hjoined]
      refine List.pairwise_append.mpr ⟨h1, List.pairwise_cons.mpr ⟨fun n hn => (hbehind n hn).le, h2⟩, fun m hm n hn => ?_⟩
      rcases List.mem_cons.mp hn with rfl | hn
      · exact hahead m hm
      · exact h12 m hm n hn
    · rw [r.sets_join_of_ne source hk]
      exact hordered k

/-- A PENDING source leaves its set, with a record that is no longer PENDING (R39). -/
theorem Rtu.lawful_leave {x : BindingRecord} (h : r.lawful) (hpending : (r.record source).status = .pending)
    (htarget : (r.record source).target = .line l) (hx : x.lawful source) (hstatus : x.status ≠ .pending) :
    ((r.leave source l).setRecord source x).lawful := by
  obtain ⟨hrecords, hmembers, hnodup, hordered⟩ := h
  have hother : ∀ m, m ≠ source → ((r.leave source l).setRecord source x).record m = r.record m := fun m hm => by
    rw [Rtu.record_setRecord_of_ne x hm, Rtu.record_leave_of_ne hm]
  have hnone : ∀ k, k ≠ l → source ∉ r.sets.read k := fun k hk hin => by
    have := ((hmembers k source).mp hin).2
    rw [htarget] at this
    exact hk (Target.line.inj this).symm
  have hsub : ∀ k, ∀ m ∈ ((r.leave source l).setRecord source x).sets.read k, m ∈ r.sets.read k ∧ m ≠ source := by
    intro k m hm
    rw [Rtu.sets_setRecord] at hm
    by_cases hk : k = l
    · subst hk
      rw [Rtu.sets_leave_same, (hnodup k).mem_erase_iff] at hm
      exact hm.symm
    · rw [r.sets_leave_of_ne source hk] at hm
      exact ⟨hm, fun e => hnone k hk (e ▸ hm)⟩
  refine ⟨fun m => ?_, fun k m => ?_, fun k => ?_, fun k => ?_⟩
  · by_cases hm : m = source
    · subst hm
      rwa [Rtu.record_setRecord_same]
    · rw [hother m hm]
      exact hrecords m
  · by_cases hm : m = source
    · subst hm
      rw [Rtu.record_setRecord_same]
      exact iff_of_false (fun hin => (hsub k m hin).2 rfl) fun hin => hstatus hin.1
    · rw [hother m hm, ← hmembers k m, Rtu.sets_setRecord]
      by_cases hk : k = l
      · subst hk
        rw [Rtu.sets_leave_same, List.mem_erase_of_ne hm]
      · rw [r.sets_leave_of_ne source hk]
  · rw [Rtu.sets_setRecord]
    by_cases hk : k = l
    · subst hk
      rw [Rtu.sets_leave_same]
      exact (hnodup k).erase source
    · rw [r.sets_leave_of_ne source hk]
      exact hnodup k
  · have hsublist : (((r.leave source l).setRecord source x).sets.read k).Sublist (r.sets.read k) := by
      rw [Rtu.sets_setRecord]
      by_cases hk : k = l
      · subst hk
        rw [Rtu.sets_leave_same]
        exact List.erase_sublist
      · rw [r.sets_leave_of_ne source hk]
    refine ((hordered k).sublist hsublist).imp_of_mem fun {m n} hm hn hmn => ?_
    rwa [hother m (hsub k m hm).2, hother n (hsub k n hn).2]

/-- Every event keeps the law of the table. -/
theorem Rtu.lawful_event (p : SourcePost) (h : r.lawful) : (r.event p).rtu.lawful := by
  have hrecord := h.1 p.source
  obtain ⟨hunbound, hreportOnly, hinternal, hmasked, hheld, hagain⟩ := hrecord
  rcases r.event_cases p with he | ⟨hbound, hmask, he⟩ | ⟨l, hpending, hmask, htarget, he⟩ | ⟨l, hidle, hmask, htarget, he⟩
    <;> rw [he]
  · exact h
  · exact Rtu.lawful_setRecord h ⟨fun h => absurd h hbound, hreportOnly, hinternal, hmasked, fun _ => hmask, hagain⟩
      (.inl ⟨rfl, rfl, rfl⟩)
  · refine Rtu.lawful_setRecord h ⟨fun h => ?_, hreportOnly, hinternal, hmasked, hheld, fun _ => hpending⟩
      (.inl ⟨rfl, rfl, rfl⟩)
    rw [hpending] at h
    cases h
  · exact Rtu.lawful_join h hidle hmask htarget

/-! ### Which bindings there are -/

/-- The bindings of the second table are among those of the first, with the same target and class. -/
def Rtu.bindingsAmong (r r' : Rtu) : Prop := ∀ m, (r'.record m).isBound = true →
  (r.record m).isBound = true ∧ (r'.record m).target = (r.record m).target ∧ (r'.record m).cls = (r.record m).cls

/-- No EXCLUSIVE binding comes to share its line when no binding is added. -/
theorem Rtu.exclusivityHolds_of_among {r' : Rtu} (h : r.exclusivityHolds) (hamong : r.bindingsAmong r') :
    r'.exclusivityHolds := by
  intro k a b hab ha hb
  have hboundTo : ∀ m, (r'.record m).boundTo k = true → (r.record m).boundTo k = true := fun m hm => by
    obtain ⟨hbound, htarget⟩ := Bool.and_eq_true_iff.mp hm
    obtain ⟨hold, hsame, -⟩ := hamong m hbound
    rw [hsame] at htarget
    exact Bool.and_eq_true_iff.mpr ⟨hold, htarget⟩
  rw [(hamong a (Bool.and_eq_true_iff.mp ha).1).2.2]
  exact h k a b hab (hboundTo a ha) (hboundTo b hb)

theorem Rtu.bindingsAmong_setRecord {x : BindingRecord} (h : x.isBound = true → (r.record source).isBound = true ∧
    x.target = (r.record source).target ∧ x.cls = (r.record source).cls) :
    r.bindingsAmong (r.setRecord source x) := by
  intro m hm
  rw [Rtu.record_setRecord] at hm ⊢
  split at hm
  next hms =>
    subst hms
    rw [if_pos rfl]
    exact h hm
  next hms =>
    rw [if_neg hms]
    exact ⟨hm, rfl, rfl⟩

/-- What an event keeps of each record: whether it is bound and masked, its target and class, and PENDING. -/
def Rtu.keepsBindings (r r' : Rtu) : Prop := ∀ m, (r'.record m).isBound = (r.record m).isBound ∧
  (r'.record m).target = (r.record m).target ∧ (r'.record m).cls = (r.record m).cls ∧
  (r'.record m).mask = (r.record m).mask ∧ ((r.record m).status = .pending → (r'.record m).status = .pending)

theorem Rtu.keepsBindings_refl (r : Rtu) : r.keepsBindings r := fun _ => ⟨rfl, rfl, rfl, rfl, id⟩

theorem Rtu.keepsBindings_trans {r' r'' : Rtu} (h : r.keepsBindings r') (h' : r'.keepsBindings r'') :
    r.keepsBindings r'' := fun m =>
  let ⟨hbound, htarget, hcls, hmask, hpending⟩ := h m
  let ⟨hbound', htarget', hcls', hmask', hpending'⟩ := h' m
  ⟨hbound'.trans hbound, htarget'.trans htarget, hcls'.trans hcls, hmask'.trans hmask, fun h => hpending' (hpending h)⟩

theorem Rtu.bindingsAmong_of_keeps {r' : Rtu} (h : r.keepsBindings r') : r.bindingsAmong r' := fun m hm =>
  let ⟨hbound, htarget, hcls, _⟩ := h m
  ⟨hbound ▸ hm, htarget, hcls⟩

theorem Rtu.keepsBindings_event (p : SourcePost) : r.keepsBindings (r.event p).rtu := by
  intro m
  by_cases hm : m = p.source
  swap
  · rw [(r.event_frame p).1 m hm]
    exact ⟨rfl, rfl, rfl, rfl, id⟩
  subst hm
  rcases r.event_cases p with he | ⟨-, -, he⟩ | ⟨l, -, -, -, he⟩ | ⟨l, hidle, -, -, he⟩ <;> rw [he]
  · exact ⟨rfl, rfl, rfl, rfl, id⟩
  · rw [Rtu.record_setRecord_same]
    exact ⟨rfl, rfl, rfl, rfl, id⟩
  · rw [Rtu.record_setRecord_same]
    exact ⟨rfl, rfl, rfl, rfl, id⟩
  · rw [Rtu.record_join, if_pos rfl]
    exact ⟨by simp [BindingRecord.isBound, hidle], rfl, rfl, rfl, fun _ => rfl⟩

/-- The waiting reports of a source keep the law of the table and the bindings. -/
theorem Rtu.takeReportsIf_lawful (reads : Bool) (h : r.lawful) :
    (r.takeReportsIf reads source).rtu.lawful ∧ r.keepsBindings (r.takeReportsIf reads source).rtu :=
  Rtu.takeReportsIf_keeps (P := fun r' => r'.lawful ∧ r.keepsBindings r') reads (fun _ _ _ h => h)
    (fun _ p _ h => ⟨Rtu.lawful_event p h.1, Rtu.keepsBindings_trans h.2 (Rtu.keepsBindings_event p)⟩)
    ⟨h, r.keepsBindings_refl⟩

/-- The law of the routing: the table and its exclusivity. -/
def Rtu.routingLawful (r : Rtu) : Prop := r.lawful ∧ r.exclusivityHolds

theorem Rtu.routingLawful_event (p : SourcePost) (h : r.routingLawful) : (r.event p).rtu.routingLawful :=
  ⟨Rtu.lawful_event p h.1, Rtu.exclusivityHolds_of_among h.2 (Rtu.bindingsAmong_of_keeps (Rtu.keepsBindings_event p))⟩

theorem Rtu.routingLawful_takeOldestReport (h : r.routingLawful) : (r.takeOldestReport source).rtu.routingLawful := by
  unfold Rtu.takeOldestReport
  split
  next rep _ =>
    rcases Rtu.takeReport_cases { r with reports := r.reports.eraseP fun x => decide (x.source = source) } rep with
      he | he <;> rw [he]
    · exact h
    · exact Rtu.routingLawful_event (r := { r with reports := _ }) _ h
  next => exact h

/-! ### The requests -/

theorem BindFields.lawful_record {f : BindFields} (h : f.target = .reportOnly → f.report = true) :
    f.record.lawful f.source := by
  refine ⟨nofun, fun _ ht => ⟨rfl, if_pos ht, h ht⟩, fun hinternal => ?_, nofun, nofun, nofun⟩
  have hnot : ¬ f.source.val < 24 := Nat.not_lt.mpr hinternal
  exact ⟨if_neg hnot, if_neg hnot⟩

/-- The class check admits no binding beside an EXCLUSIVE one, and no EXCLUSIVE one beside another (R25). -/
theorem Rtu.exclusivityHolds_bind {f : BindFields} (h : r.exclusivityHolds) (hadmits : r.admits f.target f.cls = true) :
    (r.setRecord f.source f.record).exclusivityHolds := by
  have hclash : ∀ k m, f.record.boundTo k = true → (r.record m).boundTo k = true →
      f.cls = .shared ∧ (r.record m).cls = .shared := by
    intro k m hnew hm
    have htarget : f.record.target = .line k := of_decide_eq_true (Bool.and_eq_true_iff.mp hnew).2
    rw [show f.record.target = f.target from rfl] at htarget
    rw [htarget] at hadmits
    cases hcls : f.cls with
    | exclusive =>
        rw [hcls] at hadmits
        simp only [Rtu.admits, Bool.not_eq_eq_eq_not, Bool.not_true, List.any_eq_false] at hadmits
        exact absurd hm (hadmits m (mem_allOf m))
    | shared =>
        rw [hcls] at hadmits
        simp only [Rtu.admits, Bool.not_eq_eq_eq_not, Bool.not_true, List.any_eq_false] at hadmits
        have := hadmits m (mem_allOf m)
        rw [hm, Bool.true_and, decide_eq_true_eq] at this
        refine ⟨rfl, ?_⟩
        cases hmc : (r.record m).cls with
        | exclusive => exact absurd hmc this
        | shared => rfl
  intro k a b hab ha hb
  rw [Rtu.record_setRecord] at ha hb ⊢
  by_cases has : a = f.source
  · subst has
    rw [if_pos rfl] at ha ⊢
    rw [if_neg (Ne.symm hab)] at hb
    simp only [BindFields.record]
    split
    · rfl
    · exact (hclash k b ha hb).1
  · rw [if_neg has] at ha ⊢
    by_cases hbs : b = f.source
    · subst hbs
      rw [if_pos rfl] at hb
      exact (hclash k a hb ha).2
    · rw [if_neg hbs] at hb
      exact h k a b hab ha hb

theorem Rtu.routingLawful_bindTimeEvent (level : Accepted) (now : Time) (h : r.routingLawful) :
    (r.bindTimeEvent source level now).rtu.routingLawful := by
  unfold Rtu.bindTimeEvent
  split
  · split
    · exact Rtu.routingLawful_event _ h
    · exact h
  · exact h

@[simp] theorem RtuStep.rtu_quiet (r : Rtu) : (RtuStep.quiet r).rtu = r := rfl

theorem RtuStep.rtu_andThen (x : RtuStep) (f : Rtu → RtuStep) : (x.andThen f).rtu = (f x.rtu).rtu := rfl

theorem Rtu.admits_of_keeps {r' : Rtu} (h : r.keepsBindings r') (target : Target) (cls : SourceClass) :
    r'.admits target cls = r.admits target cls := by
  have hboundTo : ∀ m k, (r'.record m).boundTo k = (r.record m).boundTo k := fun m k => by
    obtain ⟨hbound, htarget, -⟩ := h m
    rw [BindingRecord.boundTo, BindingRecord.boundTo, hbound, htarget]
  have hcls : ∀ m, (r'.record m).cls = (r.record m).cls := fun m => (h m).2.2.1
  cases target with
  | reportOnly => rfl
  | line k => cases cls <;> simp only [Rtu.admits, hboundTo, hcls]

theorem Rtu.routingLawful_bind {f : BindFields} (level : Accepted) (now : Time) (h : r.routingLawful)
    (hreport : f.target = .reportOnly → f.report = true) (hunbound : (r.record f.source).isBound = false)
    (hadmits : r.admits f.target f.cls = true) : (r.bind f level now).rtu.routingLawful := by
  obtain ⟨hlawful, hkeeps⟩ : (r.takeReportsOf f.source).rtu.lawful ∧ r.keepsBindings (r.takeReportsOf f.source).rtu :=
    Rtu.takeReportsIf_lawful true h.1
  have hexclusive := Rtu.exclusivityHolds_of_among h.2 (Rtu.bindingsAmong_of_keeps hkeeps)
  have hunbound : ((r.takeReportsOf f.source).rtu.record f.source).status = .unbound :=
    BindingRecord.isBound_eq_false.mp ((hkeeps f.source).1.trans hunbound)
  rw [Rtu.bind, RtuStep.rtu_andThen]
  refine Rtu.routingLawful_bindTimeEvent level now ⟨Rtu.lawful_setRecord hlawful (BindFields.lawful_record hreport)
    (.inr ⟨by simp [hunbound], by simp [BindFields.record]⟩), Rtu.exclusivityHolds_bind hexclusive ?_⟩
  rw [Rtu.admits_of_keeps hkeeps]
  exact hadmits

theorem BindingRecord.lawful_unbound : BindingRecord.unbound.lawful source :=
  ⟨fun _ => rfl, fun h => absurd rfl h, fun _ => ⟨rfl, rfl⟩, nofun, nofun, nofun⟩

/-- Every source and every line is as it was, or the source has left its set; then its record is replaced. -/
theorem Rtu.unbind_cases (r : Rtu) (source : Source) :
    ((∃ l, (r.record source).status = .pending ∧ (r.record source).target = .line l ∧
      r.unbind source = (r.leave source l).setRecord source BindingRecord.unbound) ∨
    ((r.record source).status = .pending → (r.record source).target = .reportOnly) ∧
      r.unbind source = r.setRecord source BindingRecord.unbound) := by
  unfold Rtu.unbind
  cases hstatus : (r.record source).status with
  | unbound => exact .inr ⟨nofun, rfl⟩
  | idle => exact .inr ⟨nofun, rfl⟩
  | pending =>
      cases htarget : (r.record source).target with
      | reportOnly => exact .inr ⟨fun _ => rfl, rfl⟩
      | line l => exact .inl ⟨l, rfl, rfl, rfl⟩

/-- A PENDING source has a line target. -/
theorem Rtu.line_of_pending (h : r.lawful) (hpending : (r.record source).status = .pending) :
    ∃ l, (r.record source).target = .line l := by
  cases htarget : (r.record source).target with
  | line l => exact ⟨l, rfl⟩
  | reportOnly =>
      have := (h.1 source).2.1 (by simp [hpending]) htarget
      rw [hpending] at this
      cases this.1

theorem Rtu.routingLawful_unbind (h : r.routingLawful) : (r.unbind source).routingLawful := by
  have hamong : ∀ r' : Rtu, (∀ m, m ≠ source → r'.record m = r.record m) →
      r.bindingsAmong (r'.setRecord source BindingRecord.unbound) := fun r' hother m hm => by
    by_cases hms : m = source
    · subst hms
      rw [Rtu.record_setRecord_same] at hm
      cases hm
    · rw [Rtu.record_setRecord_of_ne _ hms, hother m hms] at hm ⊢
      exact ⟨hm, rfl, rfl⟩
  rcases r.unbind_cases source with ⟨l, hpending, htarget, heq⟩ | ⟨hnot, heq⟩ <;> rw [heq]
  · exact ⟨Rtu.lawful_leave h.1 hpending htarget BindingRecord.lawful_unbound nofun,
      Rtu.exclusivityHolds_of_among h.2 (hamong _ fun m hm => Rtu.record_leave_of_ne hm)⟩
  · refine ⟨Rtu.lawful_setRecord h.1 BindingRecord.lawful_unbound (.inr ⟨fun hpending => ?_, nofun⟩),
      Rtu.exclusivityHolds_of_among h.2 (hamong r fun _ _ => rfl)⟩
    obtain ⟨l, htarget⟩ := Rtu.line_of_pending h.1 hpending
    rw [hnot hpending] at htarget
    cases htarget

/-- What MASK on does (R52): nothing to a masked source, an unmasked PENDING one leaves its set with its event held, and
another is masked. -/
theorem Rtu.maskOn_cases (r : Rtu) (source : Source) :
    (r.record source).mask = true ∧ r.maskOn source = r ∨
    (r.record source).mask = false ∧
      ((∃ l, (r.record source).status = .pending ∧ (r.record source).target = .line l ∧
        r.maskOn source = (r.leave source l).setRecord source
          { r.record source with mask := true, status := .idle, again := false, held := true }) ∨
      ((r.record source).status = .pending → (r.record source).target = .reportOnly) ∧
        r.maskOn source = r.setRecord source { r.record source with mask := true }) := by
  unfold Rtu.maskOn
  cases hmask : (r.record source).mask with
  | true => exact .inl ⟨rfl, by simp only [hmask, if_true]⟩
  | false =>
      right
      cases hstatus : (r.record source).status with
      | unbound => exact ⟨rfl, .inr ⟨nofun, by simp only [hmask, hstatus, Bool.false_eq_true, if_false]⟩⟩
      | idle => exact ⟨rfl, .inr ⟨nofun, by simp only [hmask, hstatus, Bool.false_eq_true, if_false]⟩⟩
      | pending =>
          cases htarget : (r.record source).target with
          | reportOnly =>
              exact ⟨rfl, .inr ⟨fun _ => rfl, by simp only [hmask, hstatus, htarget, Bool.false_eq_true, if_false]⟩⟩
          | line l =>
              exact ⟨rfl, .inl ⟨l, rfl, rfl, by simp only [hmask, hstatus, htarget, Bool.false_eq_true, if_false]⟩⟩

theorem Rtu.routingLawful_maskOn (h : r.routingLawful) (hbound : (r.record source).isBound = true) :
    (r.maskOn source).routingLawful := by
  have hstatus := BindingRecord.isBound_iff.mp hbound
  obtain ⟨hunbound, hreportOnly, hinternal, hmasked, hheld, hagain⟩ := h.1.1 source
  have hamong : ∀ (r' : Rtu) (x : BindingRecord), (∀ m, m ≠ source → r'.record m = r.record m) →
      x.target = (r.record source).target → x.cls = (r.record source).cls →
      r.bindingsAmong (r'.setRecord source x) := fun r' x hother htarget hcls m hm => by
    by_cases hms : m = source
    · subst hms
      rw [Rtu.record_setRecord_same]
      exact ⟨hbound, htarget, hcls⟩
    · rw [Rtu.record_setRecord_of_ne _ hms, hother m hms] at hm ⊢
      exact ⟨hm, rfl, rfl⟩
  rcases r.maskOn_cases source with ⟨-, heq⟩ | ⟨-, ⟨l, hpending, htarget, heq⟩ | ⟨hnot, heq⟩⟩ <;> rw [heq]
  · exact h
  · refine ⟨Rtu.lawful_leave h.1 hpending htarget ⟨nofun, fun _ ht => ?_, hinternal, nofun, fun _ => rfl, nofun⟩ nofun,
      Rtu.exclusivityHolds_of_among h.2 (hamong _ _ (fun m hm => Rtu.record_leave_of_ne hm) rfl rfl)⟩
    rw [htarget] at ht
    cases ht
  · have hnotPending : (r.record source).status ≠ .pending := fun hpending => by
      obtain ⟨l, htarget⟩ := Rtu.line_of_pending h.1 hpending
      rw [hnot hpending] at htarget
      cases htarget
    exact ⟨Rtu.lawful_setRecord h.1 ⟨fun h => absurd h hstatus, hreportOnly, hinternal, fun _ => hnotPending, fun _ => rfl,
      hagain⟩ (.inl ⟨rfl, rfl, rfl⟩), Rtu.exclusivityHolds_of_among h.2 (hamong r _ (fun _ _ => rfl) rfl rfl)⟩

theorem Rtu.bindingsAmong_join (hbound : (r.record source).isBound = true) : r.bindingsAmong (r.join source l) := by
  intro m hm
  by_cases hms : m = source
  · subst hms
    rw [Rtu.record_join, if_pos rfl]
    exact ⟨hbound, rfl, rfl⟩
  · rw [Rtu.record_join_of_ne hms] at hm ⊢
    exact ⟨hm, rfl, rfl⟩

theorem Rtu.bindingsAmong_trans {r' r'' : Rtu} (h : r.bindingsAmong r') (h' : r'.bindingsAmong r'') :
    r.bindingsAmong r'' := fun m hm =>
  let ⟨hbound', htarget', hcls'⟩ := h' m hm
  let ⟨hbound, htarget, hcls⟩ := h m hbound'
  ⟨hbound, htarget'.trans htarget, hcls'.trans hcls⟩

/-- What an unmasking does to the table (R53, R54): the record is cleared of mask and held, and the source may join. -/
theorem Rtu.unmask_cases (r : Rtu) (source : Source) (level : Accepted) (now : Time) :
    (r.unmask source level now).rtu = r.setRecord source { r.record source with mask := false, held := false } ∨
    ∃ l, (r.record source).target = .line l ∧ ((r.record source).held || (r.record source).sense.active level) = true ∧
      (r.unmask source level now).rtu =
        (r.setRecord source { r.record source with mask := false, held := false }).join source l := by
  unfold Rtu.unmask
  cases htarget : (r.record source).target with
  | reportOnly => exact .inl (by simp only [htarget]; rfl)
  | line l =>
      cases hjoins : (r.record source).held || (r.record source).sense.active level with
      | false => exact .inl (by simp only [htarget, hjoins, Bool.false_eq_true, if_false]; rfl)
      | true => exact .inr ⟨l, rfl, rfl, by simp only [htarget, hjoins, if_true]; rfl⟩

theorem Rtu.routingLawful_unmask (level : Accepted) (now : Time) (h : r.routingLawful)
    (hbound : (r.record source).isBound = true) (hmask : (r.record source).mask = true) :
    (r.unmask source level now).rtu.routingLawful := by
  have hstatus := BindingRecord.isBound_iff.mp hbound
  obtain ⟨hunbound, hreportOnly, hinternal, hmasked, -, hagain⟩ := h.1.1 source
  have hbare : (r.setRecord source { r.record source with mask := false, held := false }).routingLawful :=
    ⟨Rtu.lawful_setRecord h.1 ⟨fun h => absurd h hstatus, hreportOnly, hinternal, nofun, nofun, hagain⟩
      (.inl ⟨rfl, rfl, rfl⟩),
      Rtu.exclusivityHolds_of_among h.2 (Rtu.bindingsAmong_setRecord fun _ => ⟨hbound, rfl, rfl⟩)⟩
  rcases r.unmask_cases source level now with heq | ⟨l, htarget, -, heq⟩ <;> rw [heq]
  · exact hbare
  · have hrecord := Rtu.record_setRecord_same r source { r.record source with mask := false, held := false }
    refine ⟨Rtu.lawful_join hbare.1 ?_ ?_ ?_, Rtu.exclusivityHolds_of_among hbare.2 (Rtu.bindingsAmong_join ?_)⟩ <;>
      rw [hrecord]
    · exact SourceStatus.eq_idle hstatus (hmasked hmask)
    · exact htarget
    · exact hbound

theorem Rtu.routingLawful_maskOff (level : Accepted) (now : Time) (h : r.routingLawful)
    (hbound : (r.record source).isBound = true) : (r.maskOff source level now).rtu.routingLawful := by
  unfold Rtu.maskOff
  split
  next hmask =>
    obtain ⟨hlawful, hkeeps⟩ := Rtu.takeReportsIf_lawful (source := source) (r.record source).unmaskReads h.1
    obtain ⟨hbound', -, -, hmask', -⟩ := hkeeps source
    rw [RtuStep.rtu_andThen]
    exact Rtu.routingLawful_unmask level now
      ⟨hlawful, Rtu.exclusivityHolds_of_among h.2 (Rtu.bindingsAmong_of_keeps hkeeps)⟩ (hbound'.trans hbound)
      (hmask'.trans hmask)
  next => exact h

/-- What a SERVICE does to the table (R48): the source leaves its set for IDLE, or rejoins with again clear. -/
theorem Rtu.serve_cases (r : Rtu) (source : Source) (l : Line) (level : Accepted) :
    (((r.record source).again || (r.record source).sense.active level) = false ∧
      (r.serve source l level).rtu = r.leave source l) ∨
    ((r.record source).again || (r.record source).sense.active level) = true ∧
      (r.serve source l level).rtu =
        ((r.leave source l).setRecord source { (r.leave source l).record source with again := false }).join source l := by
  unfold Rtu.serve
  cases hrejoins : (r.record source).again || (r.record source).sense.active level with
  | false => exact .inl ⟨rfl, by simp only [hrejoins, Bool.false_eq_true, if_false]; rfl⟩
  | true => exact .inr ⟨rfl, by simp only [hrejoins, if_true]; rfl⟩

@[simp] theorem Rtu.setRecord_record (r : Rtu) (source : Source) : r.setRecord source (r.record source) = r := by
  simp [Rtu.setRecord, Rtu.record]

theorem Rtu.record_leave_same : (r.leave source l).record source = { r.record source with status := .idle } :=
  (Rtu.record_leave ..).trans (if_pos rfl)

theorem Rtu.routingLawful_serve (level : Accepted) (h : r.routingLawful)
    (hpending : (r.record source).status = .pending) (htarget : (r.record source).target = .line l) :
    (r.serve source l level).rtu.routingLawful := by
  obtain ⟨-, -, hinternal, hmasked, hheld, -⟩ := h.1.1 source
  have hmask : (r.record source).mask = false := by
    by_contra hm
    exact hmasked (by simpa using hm) hpending
  have hleft : ((r.leave source l).setRecord source { r.record source with status := .idle, again := false }).routingLawful := by
    refine ⟨Rtu.lawful_leave h.1 hpending htarget
      ⟨nofun, fun _ ht => ?_, hinternal, nofun, hheld, nofun⟩ nofun,
      Rtu.exclusivityHolds_of_among h.2 fun m hm => ?_⟩
    · rw [htarget] at ht
      cases ht
    · by_cases hms : m = source
      · subst hms
        rw [Rtu.record_setRecord_same]
        exact ⟨by simp [BindingRecord.isBound, hpending], rfl, rfl⟩
      · rw [Rtu.record_setRecord_of_ne _ hms, Rtu.record_leave_of_ne hms] at hm ⊢
        exact ⟨hm, rfl, rfl⟩
  rcases r.serve_cases source l level with ⟨hstays, heq⟩ | ⟨-, heq⟩ <;> rw [heq]
  · obtain ⟨hagain, -⟩ := Bool.or_eq_false_iff.mp hstays
    have hsame : (r.leave source l).setRecord source { r.record source with status := .idle, again := false } =
        r.leave source l := by
      rw [← hagain]
      exact Rtu.record_leave_same ▸ Rtu.setRecord_record ..
    rwa [hsame] at hleft
  · rw [Rtu.record_leave_same]
    have hrecord := Rtu.record_setRecord_same (r.leave source l) source
      { r.record source with status := .idle, again := false }
    refine ⟨Rtu.lawful_join hleft.1 ?_ ?_ ?_, Rtu.exclusivityHolds_of_among hleft.2 (Rtu.bindingsAmong_join ?_)⟩ <;>
      rw [hrecord]
    · exact hmask
    · exact htarget
    · rfl

theorem Rtu.routingLawful_service (level : Accepted) (h : r.routingLawful)
    (hpending : (r.record source).status = .pending) : (r.service source level).rtu.routingLawful := by
  unfold Rtu.service
  cases htarget : (r.record source).target with
  | reportOnly => exact h
  | line l =>
      obtain ⟨hlawful, hkeeps⟩ := Rtu.takeReportsIf_lawful (source := source) (r.record source).serviceReads h.1
      obtain ⟨-, htarget', -, -, hpending'⟩ := hkeeps source
      simp only
      rw [RtuStep.rtu_andThen]
      exact Rtu.routingLawful_serve level
        ⟨hlawful, Rtu.exclusivityHolds_of_among h.2 (Rtu.bindingsAmong_of_keeps hkeeps)⟩ (hpending' hpending)
        (htarget'.trans htarget)

/-! ### Resets -/

theorem Rtu.record_cleared (m : Source) : r.cleared.record m = (r.record m).cleared := Tbl.read_build ..

theorem BindingRecord.lawful_cleared {x : BindingRecord} (h : x.lawful source) :
    x.cleared.lawful source ∧ x.cleared.status ≠ .pending := by
  obtain ⟨hunbound, hreportOnly, hinternal, -⟩ := h
  by_cases hbound : x.isBound = true
  · have hstatus : x.cleared.status = .idle := if_pos hbound
    refine ⟨⟨by rw [hstatus]; nofun, fun _ ht => ⟨hstatus, ?_⟩, hinternal, by rw [hstatus]; nofun, nofun, nofun⟩,
      by rw [hstatus]; nofun⟩
    exact (hreportOnly (BindingRecord.isBound_iff.mp hbound) ht).2
  · have heq := hunbound (BindingRecord.isBound_eq_false.mp (by simpa using hbound))
    rw [heq]
    exact ⟨BindingRecord.lawful_unbound, by decide⟩

theorem Rtu.isBound_cleared (x : BindingRecord) : x.cleared.isBound = x.isBound := by
  cases h : x.isBound <;> simp [BindingRecord.cleared, BindingRecord.isBound] <;>
    simpa [BindingRecord.isBound] using h

theorem Rtu.routingLawful_cleared (h : r.routingLawful) : r.cleared.routingLawful := by
  obtain ⟨⟨hrecords, -⟩, hexclusive⟩ := h
  have hsets : ∀ k, r.cleared.sets.read k = [] := fun k => Tbl.read_fill ..
  refine ⟨⟨fun m => ?_, fun k m => ?_, fun k => ?_, fun k => ?_⟩, Rtu.exclusivityHolds_of_among hexclusive fun m hm => ?_⟩
  · rw [Rtu.record_cleared]
    exact (BindingRecord.lawful_cleared (hrecords m)).1
  · rw [hsets, Rtu.record_cleared]
    exact iff_of_false (by simp) fun h => (BindingRecord.lawful_cleared (hrecords m)).2 h.1
  · rw [hsets]
    exact List.nodup_nil
  · rw [hsets]
    exact List.Pairwise.nil
  · rw [Rtu.record_cleared, Rtu.isBound_cleared] at hm
    rw [Rtu.record_cleared]
    exact ⟨hm, rfl, rfl⟩

theorem Rtu.record_initial (m : Source) : Rtu.initial.record m = BindingRecord.unbound := Tbl.read_fill ..

theorem Rtu.routingLawful_initial : Rtu.initial.routingLawful := by
  have hsets : ∀ k, Rtu.initial.sets.read k = [] := fun k => Tbl.read_fill ..
  refine ⟨⟨fun m => ?_, fun k m => ?_, fun k => ?_, fun k => ?_⟩, fun k a b _ ha => ?_⟩
  · rw [Rtu.record_initial]
    exact BindingRecord.lawful_unbound
  · rw [hsets, Rtu.record_initial]
    exact iff_of_false (by simp) fun h => nomatch h.1
  · rw [hsets]
    exact List.nodup_nil
  · rw [hsets]
    exact List.Pairwise.nil
  · rw [Rtu.record_initial] at ha
    cases ha

/-! ### Every step, the table -/

variable {s t : State}

/-- The law of the table looks at the records and the sets alone. -/
theorem Rtu.routingLawful_of_same {r' : Rtu} (h : r.routingLawful) (hrecords : r'.records = r.records)
    (hsets : r'.sets = r.sets) : r'.routingLawful := by
  obtain ⟨records, sets, reports⟩ := r
  obtain ⟨records', sets', reports'⟩ := r'
  simp only at hrecords hsets
  subst hrecords hsets
  exact h

theorem State.takePosts_table : s.takePosts.rtu.records = s.rtu.records ∧ s.takePosts.rtu.sets = s.rtu.sets := by
  refine State.takePosts_keeps (P := fun t => t.rtu.records = s.rtu.records ∧ t.rtu.sets = s.rtu.sets) ⟨rfl, rfl⟩
    fun t p h => ?_
  rw [State.takePost, State.rtu_startNext]
  exact h

theorem OwnerEffect.keeps_table {a : Answer} (h : s.rtu.routingLawful) (ha : OwnerEffect s a) :
    a.state.rtu.routingLawful := by
  cases ha with
  | bound f fields hreport hunbound hadmits => exact Rtu.routingLawful_bind _ _ h hreport hunbound hadmits
  | unbound source fields =>
      obtain ⟨hrecords, hsets⟩ := State.takePosts_table (s := s)
      exact Rtu.routingLawful_of_same
        (Rtu.routingLawful_unbind (source := source) (Rtu.routingLawful_of_same h hrecords hsets)) rfl rfl
  | masked source fields hbound => exact Rtu.routingLawful_maskOn h hbound
  | unmasked source fields hbound => exact Rtu.routingLawful_maskOff _ _ h hbound
  | served source fields hpending => exact Rtu.routingLawful_service _ h hpending
  | _ => exact Rtu.routingLawful_of_same h rfl rfl

theorem State.routingLawful_startNext (h : s.rtu.routingLawful) : s.startNext.rtu.routingLawful := by
  rwa [State.rtu_startNext]

theorem State.Effect.keeps_table (h : s.rtu.routingLawful) (he : s.Effect t) : t.rtu.routingLawful := by
  cases he with
  | powerOnHigh req => exact State.routingLawful_startNext Rtu.routingLawful_initial
  | powerOnLow req => exact Rtu.routingLawful_initial
  | supplyDip => exact Rtu.routingLawful_initial
  | enterReset => exact Rtu.routingLawful_cleared h
  | sampled src =>
      obtain ⟨_, _, heq⟩ := s.sample_eq src
      rw [heq]
      exact Rtu.routingLawful_of_same h rfl rfl
  | reportTaken source => exact Rtu.routingLawful_takeOldestReport h
  | request kind f a hlive hnext hkind howner =>
      rw [State.finish_rtu]
      exact howner.keeps_table (s := s.takeFrame) h
  | leaveReset | postTaken | recoveredStarting | badKind | duplicate | frameSent | roundBegun =>
      exact State.routingLawful_startNext (Rtu.routingLawful_of_same h rfl rfl)
  | _ => exact Rtu.routingLawful_of_same h rfl rfl

/-! ### Every step, the levels -/

/-- An internal source has a level at every time. -/
theorem Scu.lt_of_unknown {x : Scu} (h : x.level source = .unknown) : source.val < 24 := by
  by_contra hnot
  rw [Scu.level, dif_neg hnot] at h
  cases h

/-- The level of an external source is the accepted level of its record. -/
theorem Scu.level_of_external (x : Scu) (h : source.val < 24) :
    x.level source = (x.conditioners.read ⟨source.val, h⟩).accepted := dif_pos h

theorem Scu.unknown_of_conditioners {x y : Scu} (h : y.conditioners = x.conditioners)
    (hunknown : y.level source = .unknown) : x.level source = .unknown := by
  have hlt := Scu.lt_of_unknown hunknown
  rw [Scu.level_of_external _ hlt] at hunknown ⊢
  rwa [h] at hunknown

/-- One source alone is concerned, and its level is known or its record says that it has had no event. -/
theorem State.eventsHaveLevels_of_local (h : s.eventsHaveLevels)
    (hlevel : ∀ m, t.scu.level m = .unknown → s.scu.level m = .unknown)
    (hothers : ∀ m, m ≠ source → t.rtu.record m = s.rtu.record m)
    (hreports : ∀ rep ∈ t.rtu.reports, rep ∈ s.rtu.reports ∨ 24 ≤ rep.source.val)
    (hsource : s.scu.level source = .unknown → (t.rtu.record source).status ≠ .pending ∧
      (t.rtu.record source).held = false) : t.eventsHaveLevels := by
  intro m hm
  have hbefore := hlevel m hm
  obtain ⟨hpending, hheld, hnone⟩ := h m hbefore
  have hnone' : t.rtu.noReportOf m := fun rep hrep => by
    rcases hreports rep hrep with hold | hinternal
    · exact hnone rep hold
    · rintro rfl
      exact absurd (Scu.lt_of_unknown hbefore) (Nat.not_lt.mpr hinternal)
  by_cases hms : m = source
  · subst hms
    obtain ⟨hpending', hheld'⟩ := hsource hbefore
    exact ⟨hpending', hheld', hnone'⟩
  · rw [hothers m hms]
    exact ⟨hpending, hheld, hnone'⟩

theorem State.eventsHaveLevels_of_same (h : s.eventsHaveLevels)
    (hconditioners : t.scu.conditioners = s.scu.conditioners) (hrecords : t.rtu.records = s.rtu.records)
    (hreports : ∀ rep ∈ t.rtu.reports, rep ∈ s.rtu.reports ∨ 24 ≤ rep.source.val) : t.eventsHaveLevels := by
  have hsame : ∀ m, t.rtu.record m = s.rtu.record m := fun m => by rw [Rtu.record, hrecords]; rfl
  refine State.eventsHaveLevels_of_local (source := 0) h (fun m hm => Scu.unknown_of_conditioners hconditioners hm)
    (fun m _ => hsame m) hreports fun hunknown => ?_
  rw [hsame]
  exact ⟨(h 0 hunknown).1, (h 0 hunknown).2.1⟩

/-- The evaluation reports internal sources alone. -/
theorem State.eventsHaveLevels_evaluate (h : s.eventsHaveLevels) : s.evaluate.eventsHaveLevels := by
  refine State.eventsHaveLevels_of_same h rfl rfl fun rep hrep => ?_
  rcases List.mem_append.mp hrep with hold | hnew
  · exact .inl hold
  · obtain ⟨i, -, rfl⟩ := State.mem_newInternalReports.mp hnew
    exact .inr (Nat.le_add_right 24 i.val)

theorem State.eventsHaveLevels_startNext (h : s.eventsHaveLevels) : s.startNext.eventsHaveLevels :=
  State.eventsHaveLevels_of_same h (congrArg Scu.conditioners (State.scu_startNext s))
    (congrArg Rtu.records (State.rtu_startNext s)) fun rep hrep => by
      rw [State.rtu_startNext] at hrep
      exact .inl hrep

/-- With no binding PENDING and none holding an event, and no report waiting, there is nothing to show. -/
theorem State.eventsHaveLevels_of_none (hrecords : ∀ m, (t.rtu.record m).status ≠ .pending ∧ (t.rtu.record m).held = false)
    (hreports : t.rtu.reports = []) : t.eventsHaveLevels := fun m _ =>
  ⟨(hrecords m).1, (hrecords m).2, fun rep hrep => by rw [hreports] at hrep; cases hrep⟩

/-- A sample that leaves the accepted level UNKNOWN found it UNKNOWN and is not accepted. -/
theorem Conditioner.of_unknown_take {c : Conditioner} {filter : Byte} {sample : Level}
    (h : (c.take filter sample).accepted = .unknown) : c.accepted = .unknown ∧ c.accepts filter sample = false := by
  have haccepts : c.accepts filter sample = false := by
    by_contra hne
    rw [Bool.not_eq_false, Conditioner.accepts_iff] at hne
    rw [Conditioner.take_of_complete hne] at h
    cases h
  refine ⟨?_, haccepts⟩
  have hsame : (c.take filter sample).accepted = c.accepted := by
    by_contra hne
    simp [Conditioner.accepted_take_ne_iff.mp hne] at haccepts
  exact hsame.symm.trans h

theorem State.not_mem_accepting {src : Tbl 24 Level} {e : External}
    (h : (s.scu.conditioners.read e).accepts (s.rtu.record (External.toSource e)).filter (src.read e) = false) :
    e ∉ s.accepting src := fun hin => by
  have haccepts := (List.mem_filter.mp hin).2
  rw [State.filterInUse, h] at haccepts
  cases haccepts

theorem State.record_sample (src : Tbl 24 Level) (m : Source) : (s.sample src).rtu.record m = s.rtu.record m :=
  congrArg (Tbl.read · m) (show (s.sample src).rtu.records = s.rtu.records from rfl)

theorem State.reports_sample (src : Tbl 24 Level) :
    (s.sample src).rtu.reports = s.rtu.reports ++ (s.accepting src).map (s.sampleReport src) := rfl

theorem State.eventsHaveLevels_sample (src : Tbl 24 Level) (h : s.eventsHaveLevels) : (s.sample src).eventsHaveLevels := by
  intro m hm
  have hlt := Scu.lt_of_unknown hm
  rw [Scu.level_of_external _ hlt, State.read_conditioners_sample] at hm
  obtain ⟨hunknown, haccepts⟩ := Conditioner.of_unknown_take hm
  obtain ⟨hpending, hheld, hnone⟩ := h m ((Scu.level_of_external _ hlt).trans hunknown)
  rw [State.record_sample, Rtu.noReportOf, State.reports_sample]
  refine ⟨hpending, hheld, fun rep hrep => ?_⟩
  rcases List.mem_append.mp hrep with hold | hnew
  · exact hnone rep hold
  · obtain ⟨e, he, rfl⟩ := List.mem_map.mp hnew
    intro hsource
    have hval : e.val = m.val := congrArg Fin.val hsource
    have hsame : e = ⟨m.val, hlt⟩ := Fin.ext hval
    exact State.not_mem_accepting haccepts (hsame ▸ he)

/-- What an RTU event of one source may leave, for the law of levels: the other records, and no report that was not
there. -/
def Rtu.concerns (source : Source) (r r' : Rtu) : Prop :=
  (∀ m, m ≠ source → r'.record m = r.record m) ∧ ∀ rep ∈ r'.reports, rep ∈ r.reports

theorem Rtu.concerns_event {r' : Rtu} (p : SourcePost) (hp : p.source = source) (h : Rtu.concerns source r r') :
    Rtu.concerns source r (r'.event p).rtu := by
  obtain ⟨hothers, hreports⟩ := r'.event_frame p
  exact ⟨fun m hm => (hothers m (hp ▸ hm)).trans (h.1 m hm), hreports ▸ h.2⟩

theorem Rtu.concerns_setRecord {r' : Rtu} (x : BindingRecord) (h : Rtu.concerns source r r') :
    Rtu.concerns source r (r'.setRecord source x) :=
  ⟨fun m hm => (Rtu.record_setRecord_of_ne x hm).trans (h.1 m hm), h.2⟩

theorem Rtu.concerns_join {r' : Rtu} (l : Line) (h : Rtu.concerns source r r') :
    Rtu.concerns source r (r'.join source l) :=
  ⟨fun m hm => (Rtu.record_join_of_ne hm).trans (h.1 m hm), h.2⟩

theorem Rtu.concerns_leave {r' : Rtu} (l : Line) (h : Rtu.concerns source r r') :
    Rtu.concerns source r (r'.leave source l) :=
  ⟨fun m hm => (Rtu.record_leave_of_ne hm).trans (h.1 m hm), h.2⟩

theorem Rtu.concerns_refl (source : Source) (r : Rtu) : Rtu.concerns source r r := ⟨fun _ _ => rfl, fun _ h => h⟩

theorem Rtu.concerns_takeReportsOf : Rtu.concerns source r (r.takeReportsOf source).rtu :=
  Rtu.takeReportsOf_keeps (P := Rtu.concerns source r)
    (fun _ _ hreports h => ⟨h.1, fun rep hrep => h.2 rep (hreports rep hrep)⟩) (fun _ => Rtu.concerns_event)
    (Rtu.concerns_refl source r)

theorem Rtu.concerns_takeReportsIf (reads : Bool) : Rtu.concerns source r (r.takeReportsIf reads source).rtu := by
  unfold Rtu.takeReportsIf
  split
  · exact Rtu.concerns_takeReportsOf
  · exact Rtu.concerns_refl source r

/-- An RTU event of one source keeps the law of levels when its level is known, or else it has had no event. -/
theorem State.eventsHaveLevels_applyRtu {x : RtuStep} (h : s.eventsHaveLevels)
    (hconcerns : Rtu.concerns source s.rtu x.rtu)
    (hsource : s.scu.level source = .unknown → (x.rtu.record source).status ≠ .pending ∧
      (x.rtu.record source).held = false) : (s.applyRtu x).eventsHaveLevels :=
  State.eventsHaveLevels_of_local (source := source) h (fun _ hm => hm) hconcerns.1 (fun rep hrep => .inl (hconcerns.2 rep hrep)) hsource

theorem Rtu.concerns_takeOldestReport : Rtu.concerns source r (r.takeOldestReport source).rtu := by
  unfold Rtu.takeOldestReport
  split
  next rep hfind =>
    have hsource : rep.source = source := by simpa using List.find?_some hfind
    have hstart : Rtu.concerns source r { r with reports := r.reports.eraseP fun x => decide (x.source = source) } :=
      ⟨fun _ _ => rfl, fun _ h => List.mem_of_mem_eraseP h⟩
    rcases Rtu.takeReport_cases { r with reports := r.reports.eraseP fun x => decide (x.source = source) } rep with
      he | he <;> rw [he]
    · exact hstart
    · exact Rtu.concerns_event _ hsource hstart
  next => exact Rtu.concerns_refl source r

theorem Scu.level_changeFilter (x : Scu) (source m : Source) (before after : Byte) :
    (x.changeFilter source before after).level m = x.level m := by
  by_cases hlt : m.val < 24
  · rw [Scu.level_of_external _ hlt, Scu.level_of_external _ hlt, Scu.read_conditioners_changeFilter]
    split <;> rfl
  · rw [Scu.level, dif_neg hlt, Scu.level, dif_neg hlt, Scu.internal_changeFilter]

theorem State.eventsHaveLevels_withFilter (h : s.eventsHaveLevels) (before after : Byte) :
    (s.withScu (s.scu.changeFilter source before after)).eventsHaveLevels := fun m hm =>
  h m ((Scu.level_changeFilter ..).symm.trans hm)

theorem Rtu.concerns_bindTimeEvent {r' : Rtu} (level : Accepted) (now : Time) (h : Rtu.concerns source r r') :
    Rtu.concerns source r (r'.bindTimeEvent source level now).rtu := by
  unfold Rtu.bindTimeEvent
  split
  · split
    · exact Rtu.concerns_event _ rfl h
    · exact h
  · exact h

theorem Rtu.bindTimeEvent_unknown (r : Rtu) (source : Source) (now : Time) :
    r.bindTimeEvent source .unknown now = RtuStep.quiet r := rfl

theorem State.eventsHaveLevels_bind (f : BindFields) (now : Time) (h : s.eventsHaveLevels) :
    (s.applyRtu (s.rtu.bind f (s.scu.level f.source) now)).eventsHaveLevels := by
  refine State.eventsHaveLevels_applyRtu (source := f.source) h ?_ fun hunknown => ?_
  · rw [Rtu.bind, RtuStep.rtu_andThen]
    exact Rtu.concerns_bindTimeEvent _ _ (Rtu.concerns_setRecord _ Rtu.concerns_takeReportsOf)
  · rw [hunknown, Rtu.bind, RtuStep.rtu_andThen]
    rw [Rtu.bindTimeEvent_unknown, RtuStep.rtu_quiet, Rtu.record_setRecord_same]
    exact ⟨nofun, rfl⟩

theorem State.eventsHaveLevels_maskOn (h : s.eventsHaveLevels) :
    (s.applyRtu (RtuStep.quiet (s.rtu.maskOn source))).eventsHaveLevels := by
  refine State.eventsHaveLevels_applyRtu (source := source) h ?_ fun hunknown => ?_
  · show Rtu.concerns source s.rtu (s.rtu.maskOn source)
    rcases s.rtu.maskOn_cases source with ⟨-, heq⟩ | ⟨-, ⟨l, -, -, heq⟩ | ⟨-, heq⟩⟩ <;> rw [heq]
    · exact Rtu.concerns_refl _ _
    · exact Rtu.concerns_setRecord _ (Rtu.concerns_leave l (Rtu.concerns_refl _ _))
    · exact Rtu.concerns_setRecord _ (Rtu.concerns_refl _ _)
  · obtain ⟨hnotPending, hheld, -⟩ := h source hunknown
    show ((s.rtu.maskOn source).record source).status ≠ _ ∧ _
    rcases s.rtu.maskOn_cases source with ⟨-, heq⟩ | ⟨-, ⟨l, hpending, -, -⟩ | ⟨-, heq⟩⟩
    · rw [RtuStep.quiet, heq]
      exact ⟨hnotPending, hheld⟩
    · exact absurd hpending hnotPending
    · rw [RtuStep.quiet, heq, Rtu.record_setRecord_same]
      exact ⟨hnotPending, hheld⟩

theorem Rtu.concerns_unmask {r' : Rtu} (level : Accepted) (now : Time) (h : Rtu.concerns source r r') :
    Rtu.concerns source r (r'.unmask source level now).rtu := by
  rcases r'.unmask_cases source level now with heq | ⟨l, -, -, heq⟩ <;> rw [heq]
  · exact Rtu.concerns_setRecord _ h
  · exact Rtu.concerns_join l (Rtu.concerns_setRecord _ h)

theorem State.eventsHaveLevels_maskOff (now : Time) (h : s.eventsHaveLevels) :
    (s.applyRtu (s.rtu.maskOff source (s.scu.level source) now)).eventsHaveLevels := by
  refine State.eventsHaveLevels_applyRtu (source := source) h ?_ fun hunknown => ?_
  · unfold Rtu.maskOff
    split
    · exact Rtu.concerns_unmask _ _ (Rtu.concerns_takeReportsIf _)
    · exact Rtu.concerns_refl _ _
  · obtain ⟨hnotPending, hheld, hnone⟩ := h source hunknown
    unfold Rtu.maskOff
    split
    · rw [Rtu.takeReportsIf_of_none hnone, RtuStep.quiet_andThen, hunknown]
      rcases s.rtu.unmask_cases source .unknown now with heq | ⟨l, -, hjoins, -⟩
      · rw [heq, Rtu.record_setRecord_same]
        exact ⟨hnotPending, rfl⟩
      · simp [hheld, Sense.active] at hjoins
    · exact ⟨hnotPending, hheld⟩

theorem Rtu.concerns_serve {r' : Rtu} (level : Accepted) (h : Rtu.concerns source r r') :
    Rtu.concerns source r (r'.serve source l level).rtu := by
  rcases r'.serve_cases source l level with ⟨-, heq⟩ | ⟨-, heq⟩ <;> rw [heq]
  · exact Rtu.concerns_leave l h
  · exact Rtu.concerns_join l (Rtu.concerns_setRecord _ (Rtu.concerns_leave l h))

theorem Rtu.concerns_service (level : Accepted) : Rtu.concerns source r (r.service source level).rtu := by
  unfold Rtu.service
  split
  · exact Rtu.concerns_serve level (Rtu.concerns_takeReportsIf _)
  · exact Rtu.concerns_refl _ _

theorem Rtu.concerns_unbind : Rtu.concerns source r (r.unbind source) := by
  rcases r.unbind_cases source with ⟨l, -, -, heq⟩ | ⟨-, heq⟩ <;> rw [heq]
  · exact Rtu.concerns_setRecord _ (Rtu.concerns_leave l (Rtu.concerns_refl _ _))
  · exact Rtu.concerns_setRecord _ (Rtu.concerns_refl _ _)

theorem Rtu.record_unbind_same : (r.unbind source).record source = BindingRecord.unbound := by
  rcases r.unbind_cases source with ⟨l, -, -, heq⟩ | ⟨-, heq⟩ <;> rw [heq, Rtu.record_setRecord_same]

theorem State.eventsHaveLevels_unbind (h : s.eventsHaveLevels) : (s.unbind source).eventsHaveLevels := by
  have hfiltered : (((s.withScu (s.scu.changeFilter source (s.rtu.record source).filter 0)).withNq
      (s.nq.withdraw source))).eventsHaveLevels := State.eventsHaveLevels_withFilter h _ _
  refine State.eventsHaveLevels_evaluate (State.eventsHaveLevels_applyRtu (source := source) hfiltered
    Rtu.concerns_unbind fun _ => ?_)
  show ((s.rtu.unbind source).record source).status ≠ _ ∧ ((s.rtu.unbind source).record source).held = _
  rw [Rtu.record_unbind_same]
  exact ⟨nofun, rfl⟩

theorem State.eventsHaveLevels_takePosts (h : s.eventsHaveLevels) : s.takePosts.eventsHaveLevels :=
  State.takePosts_keeps (P := State.eventsHaveLevels) h fun _ _ ht =>
    State.eventsHaveLevels_startNext (State.eventsHaveLevels_evaluate ht)

theorem OwnerEffect.keeps_levels {a : Answer} (h : s.eventsHaveLevels) (ha : OwnerEffect s a) :
    a.state.eventsHaveLevels := by
  cases ha with
  | bound f fields =>
      have hfiltered := State.eventsHaveLevels_withFilter (source := f.source) h (s.rtu.record f.source).filter f.record.filter
      have hbound := State.eventsHaveLevels_bind f s.now hfiltered
      rwa [State.withScu_scu, Scu.level_changeFilter] at hbound
  | unbound source fields => exact State.eventsHaveLevels_unbind (State.eventsHaveLevels_takePosts h)
  | masked source fields => exact State.eventsHaveLevels_maskOn h
  | unmasked source fields => exact State.eventsHaveLevels_maskOff s.now h
  | served source fields hpending =>
      exact State.eventsHaveLevels_applyRtu (source := source) h (Rtu.concerns_service _)
        fun hunknown => absurd hpending (h source hunknown).1
  | assigned | revoked | acknowledged | resynced => exact State.eventsHaveLevels_evaluate h
  | _ => exact h

theorem State.Effect.keeps_levels (h : s.eventsHaveLevels) (he : s.Effect t) : t.eventsHaveLevels := by
  have hinitial : ∀ mode req, (State.powerOn mode req).eventsHaveLevels := fun mode req =>
    State.eventsHaveLevels_of_none (fun m => (Rtu.record_initial m).symm ▸ ⟨nofun, rfl⟩) rfl
  cases he with
  | powerOnHigh req => exact State.eventsHaveLevels_startNext (hinitial .running req)
  | powerOnLow req => exact hinitial .resetLow req
  | supplyDip => exact hinitial .powerOnReset (Tbl.fill 12 .low)
  | enterReset =>
      refine State.eventsHaveLevels_of_none (fun m => ?_) rfl
      show (s.rtu.cleared.record m).status ≠ _ ∧ (s.rtu.cleared.record m).held = _
      rw [Rtu.record_cleared]
      refine ⟨?_, rfl⟩
      simp only [BindingRecord.cleared]
      split <;> nofun
  | sampled src => exact State.eventsHaveLevels_sample src h
  | reportTaken source =>
      refine State.eventsHaveLevels_applyRtu (source := source) h Rtu.concerns_takeOldestReport fun hunknown => ?_
      obtain ⟨hnotPending, hheld, hnone⟩ := h source hunknown
      rw [Rtu.takeOldestReport_of_none hnone]
      exact ⟨hnotPending, hheld⟩
  | request kind f a hlive hnext hkind howner =>
      exact State.eventsHaveLevels_startNext (howner.keeps_levels (s := s.takeFrame) h)
  | channelSampled | holdExpired | recovered | stalled => exact State.eventsHaveLevels_evaluate h
  | leaveReset | postTaken | recoveredStarting =>
      exact State.eventsHaveLevels_startNext (State.eventsHaveLevels_evaluate h)
  | badKind | duplicate | frameSent | roundBegun => exact State.eventsHaveLevels_startNext h
  | _ => exact h

/-- Settles O54: one change of a record and of its set at a time, with the law of the table kept under each; and for the law
of levels, that an RTU event concerns one source, whose level is known when it has a report, is PENDING or holds an event. -/
theorem stepKeepsRoutingLaw : Obligations.StepKeepsRoutingLaw := by
  refine ⟨fun s t hs hstep => ?_, fun s t hs hstep => ?_⟩
  · exact step_keeps (P := fun s => s.rtu.routingLawful) (fun _ _ h => h) (fun _ _ => State.Effect.keeps_table) hs hstep
  · exact step_keeps (P := State.eventsHaveLevels) (fun _ _ h => h) (fun _ _ => State.Effect.keeps_levels) hs hstep

end Sys2Proof.Machine
end

section
/-! The notice queue and the notice sender: the law of the queue as a relation between an entry and those behind it, its
keeping under each change of the queue, and the law of notice delivery. -/

namespace Sys2Proof.Machine

/-! ### Entries and lists -/

theorem Entry.isUnsent_iff {e : Entry} : e.isUnsent = true ↔ e.delivery = .unsent := decide_eq_true_iff

theorem Entry.hasNumber_iff {number : Byte} {e : Entry} : e.hasNumber number = true ↔ e.number = some number := by
  cases h : e.delivery <;> simp [Entry.hasNumber, Entry.number, h]

theorem Entry.number_eq_none {e : Entry} : e.number = none ↔ e.isUnsent = true := by
  cases h : e.delivery <;> simp [Entry.number, Entry.isUnsent, h]

theorem Entry.isUnsentOf_iff {source : Source} {e : Entry} :
    e.isUnsentOf source = true ↔ e.isUnsent = true ∧ e.source = some source := by
  simp [Entry.isUnsentOf]

theorem Entry.isUnsentLoss_iff {e : Entry} : e.isUnsentLoss = true ↔ e.isUnsent = true ∧ e.isLoss = true := by
  simp [Entry.isUnsentLoss]

theorem Nq.mem_inFlight {n : Nq} {number : Byte} :
    number ∈ n.inFlight ↔ n.queue.any (Entry.hasNumber number) = true := by
  simp [Nq.inFlight, Entry.hasNumber_iff]

/-- What is read from entries without regard to the change of one is read as before. -/
theorem filterMap_updateFirst {α β : Type} {p : α → Bool} {f : α → α} {g : α → Option β} (h : ∀ x, g (f x) = g x)
    (l : List α) : (updateFirst p f l).filterMap g = l.filterMap g := by
  induction l with
  | nil => rfl
  | cons x rest ih => by_cases hx : p x = true <;> simp [updateFirst, hx, h, ih, List.filterMap_cons]

/-- A relation between a member and those behind it is kept by a change of one member that the relation does not see. -/
theorem pairwise_updateFirst {α : Type} {R : α → α → Prop} {p : α → Bool} {f : α → α}
    (hleft : ∀ x y, R x y → R (f x) y) (hright : ∀ x y, R x y → R x (f y)) {l : List α} (h : l.Pairwise R) :
    (updateFirst p f l).Pairwise R := by
  by_cases hany : l.any p = true
  · obtain ⟨front, x, back, rfl, hx, hfront⟩ := exists_first hany
    rw [updateFirst_of_split hx hfront]
    obtain ⟨hf, hxb, hcross⟩ := List.pairwise_append.mp h
    obtain ⟨hx', hb⟩ := List.pairwise_cons.mp hxb
    refine List.pairwise_append.mpr ⟨hf, List.pairwise_cons.mpr ⟨fun y hy => hleft x y (hx' y hy), hb⟩, fun y hy z hz => ?_⟩
    rcases List.mem_cons.mp hz with rfl | hz
    · exact hright _ _ (hcross y hy x (by simp))
    · exact hcross y hy z (by simp [hz])
  · rw [updateFirst_of_none (by simpa using hany)]
    exact h

/-- At most one member satisfies the test exactly when no two do. -/
theorem length_filter_le_one {α : Type} {p : α → Bool} {l : List α} :
    (l.filter p).length ≤ 1 ↔ l.Pairwise fun x y => p x = true → p y = true → False := by
  rw [← List.pairwise_filter]
  match l.filter p with
  | [] => simp
  | [x] => simp
  | x :: y :: rest => exact iff_of_false (by simp) fun h => (List.pairwise_cons.mp h).1 y (by simp)

theorem pairwise_forall {α β : Type} {R : β → α → α → Prop} {l : List α} :
    (l.Pairwise fun x y => ∀ b, R b x y) ↔ ∀ b, l.Pairwise (R b) := by
  induction l with
  | nil => simp
  | cons x rest ih =>
      simp only [List.pairwise_cons, ih]
      exact ⟨fun h b => ⟨fun y hy => h.1 y hy b, h.2 b⟩, fun h => ⟨fun y hy b => (h b).1 y hy, fun b => (h b).2⟩⟩

/-- No member but the head satisfies the test exactly when none stands behind another. -/
theorem forall_mem_tail {α : Type} {p : α → Prop} {l : List α} : (∀ x ∈ l.tail, p x) ↔ l.Pairwise fun _ y => p y := by
  cases l with
  | nil => simp
  | cons x rest =>
      exact ⟨fun h => List.pairwise_cons.mpr ⟨h, List.pairwise_of_forall_mem_list fun _ _ y hy => h y hy⟩,
        fun h => (List.pairwise_cons.mp h).1⟩

/-- A list is its members that fail a test followed by those that pass it exactly when none that fails stands behind one
that passes. -/
theorem eq_filter_append_iff {α : Type} {p : α → Bool} {l : List α} :
    l = l.filter (fun x => !p x) ++ l.filter p ↔ l.Pairwise fun x y => p x = true → p y = true := by
  constructor
  · intro h
    rw [h]
    refine List.pairwise_append.mpr ⟨?_, ?_, fun x hx _ _ hpx => ?_⟩
    · exact List.pairwise_filter.mpr (List.pairwise_of_forall_mem_list fun x _ y _ hx _ hpx => by simp [hpx] at hx)
    · exact List.pairwise_filter.mpr (List.pairwise_of_forall_mem_list fun x _ y _ _ hy _ => hy)
    · have := (List.mem_filter.mp hx).2
      simp [hpx] at this
  · intro h
    induction l with
    | nil => rfl
    | cons x rest ih =>
        obtain ⟨hx, hrest⟩ := List.pairwise_cons.mp h
        cases hpx : p x with
        | false => simpa [hpx] using ih hrest
        | true =>
            have hall : ∀ y ∈ rest, p y = true := fun y hy => hx y hy hpx
            have hnone : rest.filter (fun y => !p y) = [] := List.filter_eq_nil_iff.mpr fun y hy => by simp [hall y hy]
            simp [hpx, hnone, List.filter_eq_self.mpr hall]

/-! ### The law of the queue -/

/-- What the law of the queue asks of an entry and one behind it: an UNSENT entry before UNSENT ones only, two numbers that
differ, no second UNSENT entry of a source and no second UNSENT LOSS entry, and no START behind anything. -/
def Entry.mayPrecede (e e' : Entry) : Prop :=
  (e.isUnsent = true → e'.isUnsent = true) ∧
  (∀ number, e.number = some number → ∀ number', e'.number = some number' → number ≠ number') ∧
  (∀ source, e.isUnsentOf source = true → e'.isUnsentOf source = true → False) ∧
  (e.isUnsentLoss = true → e'.isUnsentLoss = true → False) ∧ e'.isStart = false

theorem Nq.lawful_iff {n : Nq} : n.lawful ↔ n.queue.length ≤ 32 ∧ n.queue.Pairwise Entry.mayPrecede ∧ 0 ∉ n.inFlight ∧
    n.inFlight.length ≤ 4 ∧ (n.firstLossTime = none ↔ n.lossCount = 0) := by
  have hpairwise : n.queue.Pairwise Entry.mayPrecede ↔
      n.queue = n.queue.filter (fun e => !e.isUnsent) ++ n.queue.filter Entry.isUnsent ∧ n.inFlight.Nodup ∧
      (∀ source : Source, (n.queue.filter (Entry.isUnsentOf source)).length ≤ 1) ∧
      (n.queue.filter Entry.isUnsentLoss).length ≤ 1 ∧ ∀ e ∈ n.queue.tail, e.isStart = false := by
    unfold Entry.mayPrecede
    simp only [List.pairwise_and_iff, eq_filter_append_iff, length_filter_le_one, pairwise_forall (β := Source),
      forall_mem_tail, Nq.inFlight, List.Nodup, List.pairwise_filterMap]
  rw [hpairwise]
  unfold Nq.lawful
  tauto

/-- The entries are the same but for what the body counts. -/
def Entry.alike (e e' : Entry) : Prop :=
  e'.delivery = e.delivery ∧ e'.source = e.source ∧ e'.isLoss = e.isLoss ∧ e'.isStart = e.isStart

theorem Entry.alike_addOccurrences (count : Byte) (e : Entry) : e.alike (e.addOccurrences count) := by
  obtain ⟨body, delivery⟩ := e
  cases body <;> exact ⟨rfl, rfl, rfl, rfl⟩

theorem Entry.alike_addLosses (count : Half) (e : Entry) : e.alike (e.addLosses count) := by
  obtain ⟨body, delivery⟩ := e
  cases body <;> exact ⟨rfl, rfl, rfl, rfl⟩

theorem Entry.alike.number {e e' : Entry} (h : e.alike e') : e'.number = e.number := by
  unfold Entry.number
  rw [h.1]

theorem Entry.alike.isUnsent {e e' : Entry} (h : e.alike e') : e'.isUnsent = e.isUnsent := by
  unfold Entry.isUnsent
  rw [h.1]

theorem Entry.alike.mayPrecede_left {e e' x : Entry} (h : e.alike e') (hx : e.mayPrecede x) : e'.mayPrecede x := by
  obtain ⟨-, hsource, hloss, -⟩ := id h
  unfold Entry.mayPrecede Entry.isUnsentOf Entry.isUnsentLoss
  rw [h.isUnsent, h.number, hsource, hloss]
  exact hx

theorem Entry.alike.mayPrecede_right {e e' x : Entry} (h : e.alike e') (hx : x.mayPrecede e) : x.mayPrecede e' := by
  obtain ⟨-, hsource, hloss, hstart⟩ := id h
  unfold Entry.mayPrecede Entry.isUnsentOf Entry.isUnsentLoss
  rw [h.isUnsent, h.number, hsource, hloss, hstart]
  exact hx

theorem pairwise_updateFirst_alike {p : Entry → Bool} {f : Entry → Entry} (hf : ∀ e : Entry, e.alike (f e)) {l : List Entry}
    (h : l.Pairwise Entry.mayPrecede) : (updateFirst p f l).Pairwise Entry.mayPrecede :=
  pairwise_updateFirst (R := Entry.mayPrecede) (fun x _ => (hf x).mayPrecede_left) (fun _ y => (hf y).mayPrecede_right) h

/-- An UNSENT entry may come behind any entry that is not one of its source, nor a LOSS with it. -/
theorem Entry.mayPrecede_of_unsent {e e' : Entry} (hunsent : e'.isUnsent = true) (hstart : e'.isStart = false)
    (hsource : ∀ source, e'.source = some source → e.isUnsentOf source = false)
    (hloss : e'.isLoss = true → e.isUnsentLoss = false) : e.mayPrecede e' := by
  refine ⟨fun _ => hunsent, fun _ _ _ hnumber => ?_, fun source he he' => ?_, fun he he' => ?_, hstart⟩
  · rw [Entry.number_eq_none.mpr hunsent] at hnumber
    cases hnumber
  · rw [hsource source (Entry.isUnsentOf_iff.mp he').2] at he
    cases he
  · rw [hloss (Entry.isUnsentLoss_iff.mp he').2] at he
    cases he

variable {n : Nq}

/-- The law of the queue looks at nothing that an entry's body counts. -/
theorem Nq.lawful_update {p : Entry → Bool} {f : Entry → Entry} (hf : ∀ e : Entry, e.alike (f e)) (h : n.lawful) :
    Nq.lawful { n with queue := updateFirst p f n.queue } ∧
      Nq.inFlight { n with queue := updateFirst p f n.queue } = n.inFlight := by
  have hinFlight : Nq.inFlight { n with queue := updateFirst p f n.queue } = n.inFlight :=
    filterMap_updateFirst (fun e => (hf e).number) _
  rw [Nq.lawful_iff] at h ⊢
  obtain ⟨hlength, hpairwise, hrest⟩ := h
  rw [hinFlight]
  exact ⟨⟨(length_updateFirst ..).trans_le hlength, pairwise_updateFirst_alike hf hpairwise, hrest⟩, rfl⟩

/-- A new entry at the tail keeps the law while there is room and no UNSENT entry of its source, or UNSENT LOSS entry if it
is one. -/
theorem Nq.lawful_append {body : NoticeBody} (h : n.lawful) (hroom : n.queue.length < 32)
    (hstart : Entry.isStart { body := body, delivery := .unsent } = false)
    (hsource : ∀ source, Entry.source { body := body, delivery := .unsent } = some source →
      n.queue.any (Entry.isUnsentOf source) = false)
    (hloss : Entry.isLoss { body := body, delivery := .unsent } = true → n.queue.any Entry.isUnsentLoss = false) :
    (n.append body).lawful ∧ (n.append body).inFlight = n.inFlight := by
  have hinFlight : (n.append body).inFlight = n.inFlight := by simp [Nq.inFlight, Nq.append, Entry.number]
  rw [Nq.lawful_iff] at h ⊢
  obtain ⟨-, hpairwise, hrest⟩ := h
  rw [hinFlight]
  refine ⟨⟨by simp [Nq.append]; omega, List.pairwise_append.mpr ⟨hpairwise, List.pairwise_singleton .., ?_⟩, hrest⟩, rfl⟩
  intro e he x hx
  rw [List.mem_singleton.mp hx]
  exact Entry.mayPrecede_of_unsent rfl hstart
    (fun source hs => by simpa using List.any_eq_false.mp (hsource source hs) e he)
    (fun hl => by simpa using List.any_eq_false.mp (hloss hl) e he)

theorem Nq.lawful_sublist {queue : List Entry} (h : n.lawful) (hsub : queue.Sublist n.queue) :
    Nq.lawful { n with queue := queue } := by
  rw [Nq.lawful_iff] at h ⊢
  obtain ⟨hlength, hpairwise, hzero, hfour, hloss⟩ := h
  have hnumbers := hsub.filterMap Entry.number
  exact ⟨hsub.length_le.trans hlength, hpairwise.sublist hsub, fun hz => hzero (hnumbers.subset hz),
    hnumbers.length_le.trans hfour, hloss⟩

theorem satInc_ne_zero {w : Nat} (a : BitVec w) (hw : 0 < w) : satInc a ≠ 0 := by
  unfold satInc satAdd
  have hone : (1#w).toNat = 1 := by
    rw [BitVec.toNat_ofNat]
    exact Nat.mod_eq_of_lt (Nat.one_lt_two_pow (by omega))
  have h2 : 1 < 2 ^ w := Nat.one_lt_two_pow (by omega)
  split
  next hlt =>
    intro h
    have := congrArg BitVec.toNat h
    rw [hone] at hlt
    simp only [BitVec.toNat_add, hone, BitVec.ofNat_eq_ofNat, BitVec.toNat_ofNat, Nat.zero_mod] at this
    rw [Nat.mod_eq_of_lt hlt] at this
    omega
  next =>
    intro h
    have := congrArg BitVec.toNat h
    simp only [BitVec.toNat_allOnes, BitVec.ofNat_eq_ofNat, BitVec.toNat_ofNat, Nat.zero_mod] at this
    omega

/-- A loss merges into the LOSS entry, or is counted with its first time (R86). -/
theorem Nq.lawful_recordLoss (now : Time) (h : n.lawful) :
    (n.recordLoss now).lawful ∧ (n.recordLoss now).inFlight = n.inFlight := by
  unfold Nq.recordLoss
  split
  · exact Nq.lawful_update (Entry.alike_addLosses 1) h
  · rw [Nq.lawful_iff] at h ⊢
    obtain ⟨hlength, hpairwise, hzero, hfour, hloss⟩ := h
    refine ⟨⟨hlength, hpairwise, hzero, hfour, ?_⟩, rfl⟩
    refine iff_of_false ?_ (satInc_ne_zero _ (by decide))
    split
    next => simp
    next hcount => rwa [hloss]

/-- A taken post keeps the law and the numbers in flight. -/
theorem Nq.lawful_takePost (now : Time) (p : Post) (h : n.lawful) :
    (n.takePost now p).lawful ∧ (n.takePost now p).inFlight = n.inFlight := by
  cases p with
  | source p =>
      simp only [Nq.takePost, Nq.takeSource]
      split
      · exact Nq.lawful_update (Entry.alike_addOccurrences 1) h
      next hnone =>
        split
        next hroom =>
          refine Nq.lawful_append h hroom rfl (fun source hsource => ?_) nofun
          obtain rfl : p.source = source := Option.some.inj hsource
          simpa using hnone
        next => exact Nq.lawful_recordLoss now h
  | grant e =>
      simp only [Nq.takePost, Nq.takeGrant]
      split
      next hroom => exact Nq.lawful_append h hroom rfl nofun nofun
      next => exact Nq.lawful_recordLoss now h

/-- The carry keeps the law, given room for a LOSS entry (R87). -/
theorem Nq.lawful_carry (h : n.lawful) (hroom : n.queue.length < 32) :
    n.carry.lawful ∧ n.carry.inFlight = n.inFlight := by
  have hcleared : ∀ {m : Nq}, m.lawful → Nq.lawful { m with lossCount := 0, firstLossTime := none } := fun hm => by
    rw [Nq.lawful_iff] at hm ⊢
    obtain ⟨hlength, hpairwise, hzero, hfour, -⟩ := hm
    exact ⟨hlength, hpairwise, hzero, hfour, by simp⟩
  unfold Nq.carry
  split
  · exact ⟨h, rfl⟩
  · simp only
    split
    · obtain ⟨hlawful, hinFlight⟩ := Nq.lawful_update (p := Entry.isUnsentLoss) (Entry.alike_addLosses n.lossCount) h
      exact ⟨hcleared hlawful, hinFlight⟩
    next hnone =>
      obtain ⟨hlawful, hinFlight⟩ := Nq.lawful_append (body := .loss n.lossCount (n.firstLossTime.getD 0)) h hroom rfl
        nofun fun _ => by simpa using hnone
      exact ⟨hcleared hlawful, hinFlight⟩

/-- A removal keeps the law, and takes the number of the entry that leaves. -/
theorem Nq.lawful_removeFirst (p : Entry → Bool) (h : n.lawful) :
    (n.removeFirst p).lawful ∧ (n.removeFirst p).inFlight = (n.queue.eraseP p).filterMap Entry.number := by
  by_cases hany : n.queue.any p = true
  · obtain ⟨front, x, back, hqueue, hx, hfront⟩ := exists_first hany
    rw [n.removeFirst_of_split hqueue hx hfront, hqueue, eraseP_of_split hx hfront]
    have hlength := h.1
    rw [hqueue] at hlength
    simp only [List.length_append, List.length_cons] at hlength
    refine Nq.lawful_carry (Nq.lawful_sublist h ?_) (by simp; omega)
    rw [hqueue]
    exact (List.sublist_cons_self x back).append_left front
  · have hnone : ∀ e ∈ n.queue, p e = false := by simpa using hany
    rw [n.removeFirst_of_none hnone, List.eraseP_of_forall_not (by simpa using hnone)]
    exact ⟨h, rfl⟩

theorem Nq.inFlight_withdraw (source : Source) (h : n.lawful) : (n.withdraw source).inFlight = n.inFlight := by
  rw [Nq.withdraw, (Nq.lawful_removeFirst _ h).2, Nq.inFlight]
  by_cases hany : n.queue.any (Entry.isUnsentOf source) = true
  · obtain ⟨front, x, back, hqueue, hx, hfront⟩ := exists_first hany
    rw [hqueue, eraseP_of_split hx hfront, List.filterMap_append, List.filterMap_append,
      List.filterMap_cons_none (Entry.number_eq_none.mpr (Entry.isUnsentOf_iff.mp hx).1)]
  · rw [List.eraseP_of_forall_not (by simpa using hany)]

/-- The acknowledged number is in flight no more, and the others are (R89). -/
theorem Nq.inFlight_acknowledge (number : Byte) (h : n.lawful) :
    (n.acknowledge number).inFlight = n.inFlight.filter fun k => !decide (k = number) := by
  rw [Nq.acknowledge, (Nq.lawful_removeFirst _ h).2, Nq.inFlight]
  have hnodup : n.inFlight.Nodup := h.2.2.1
  by_cases hany : n.queue.any (Entry.hasNumber number) = true
  · obtain ⟨front, x, back, hqueue, hx, hfront⟩ := exists_first hany
    rw [Nq.inFlight, hqueue, List.filterMap_append, List.filterMap_cons_some (Entry.hasNumber_iff.mp hx)] at hnodup
    obtain ⟨hout, -⟩ := List.nodup_cons.mp (List.nodup_middle.mp hnodup)
    rw [hqueue, eraseP_of_split hx hfront, List.filterMap_append, List.filterMap_append,
      List.filterMap_cons_some (Entry.hasNumber_iff.mp hx), List.filter_append, List.filter_cons_of_neg (by simp)]
    rw [← List.filter_append, List.filter_eq_self.mpr]
    intro k hk
    have : k ≠ number := fun hkn => hout (hkn ▸ hk)
    simpa using this
  · rw [List.eraseP_of_forall_not (by simpa using hany), List.filter_eq_self.mpr]
    intro k hk
    have : k ≠ number := fun hkn => hany (Nq.mem_inFlight.mp (hkn ▸ hk))
    simpa using this

/-- The numbers of a NOTICE_ACK that are ACKED. -/
def Nq.acked (n : Nq) (numbers : List Byte) : List Byte := ((n.acknowledgeAll numbers).2.filter Prod.snd).map Prod.fst

theorem Nq.lawful_acknowledgeAll (numbers : List Byte) (h : n.lawful) : (n.acknowledgeAll numbers).1.lawful ∧
    (n.acknowledgeAll numbers).1.inFlight = n.inFlight.filter fun k => !decide (k ∈ n.acked numbers) := by
  induction numbers generalizing n with
  | nil => exact ⟨h, by simp [Nq.acked, Nq.acknowledgeAll]⟩
  | cons number rest ih =>
      obtain ⟨hlawful, hinFlight⟩ := ih (n := n.acknowledge number) (Nq.lawful_removeFirst _ h).1
      refine ⟨hlawful, ?_⟩
      have hacked : n.acked (number :: rest) =
          if number ∈ n.inFlight then number :: (n.acknowledge number).acked rest else (n.acknowledge number).acked rest := by
        simp only [Nq.acked, Nq.acknowledgeAll, Nq.mem_inFlight]
        split
        next hin => rw [List.filter_cons_of_pos (p := Prod.snd) hin, List.map_cons]
        next hout => rw [List.filter_cons_of_neg (p := Prod.snd) hout]
      show ((n.acknowledge number).acknowledgeAll rest).1.inFlight = _
      rw [hinFlight, Nq.inFlight_acknowledge number h, List.filter_filter, hacked]
      refine List.filter_congr fun k hk => ?_
      split
      next => simp [Bool.and_comm]
      next hout =>
        have : k ≠ number := fun hkn => hout (hkn ▸ hk)
        simp [this]

/-! ### The merge of RESYNC -/

/-- The outcome of merging: all UNSENT, in lawful order. -/
def isMerged (l : List Entry) : Prop := l.Pairwise Entry.mayPrecede ∧ ∀ e ∈ l, e.isUnsent = true

theorem isMerged_update {p : Entry → Bool} {f : Entry → Entry} (hf : ∀ e : Entry, e.alike (f e)) {l : List Entry}
    (h : isMerged l) : isMerged (updateFirst p f l) := by
  obtain ⟨hpairwise, hunsent⟩ := h
  refine ⟨pairwise_updateFirst_alike hf hpairwise, ?_⟩
  by_cases hany : l.any p = true
  · obtain ⟨front, x, back, rfl, hx, hfront⟩ := exists_first hany
    rw [updateFirst_of_split hx hfront]
    simp only [List.mem_append, List.mem_cons] at hunsent ⊢
    rintro e (he | rfl | he)
    · exact hunsent e (.inl he)
    · exact (hf x).isUnsent.trans (hunsent x (.inr (.inl rfl)))
    · exact hunsent e (.inr (.inr he))
  · rwa [updateFirst_of_none (by simpa using hany)]

theorem isMerged_append {l : List Entry} {e : Entry} (h : isMerged l) (hunsent : e.isUnsent = true)
    (hstart : e.isStart = false) (hsource : ∀ source, e.source = some source → l.any (Entry.isUnsentOf source) = false)
    (hloss : e.isLoss = true → l.any Entry.isUnsentLoss = false) : isMerged (l ++ [e]) := by
  obtain ⟨hpairwise, hall⟩ := h
  refine ⟨List.pairwise_append.mpr ⟨hpairwise, List.pairwise_singleton .., fun x hx y hy => ?_⟩, fun x hx => ?_⟩
  · rw [List.mem_singleton.mp hy]
    exact Entry.mayPrecede_of_unsent hunsent hstart
      (fun source hs => by simpa using List.any_eq_false.mp (hsource source hs) x hx)
      (fun hl => by simpa using List.any_eq_false.mp (hloss hl) x hx)
  · rcases List.mem_append.mp hx with hx | hx
    · exact hall x hx
    · rwa [List.mem_singleton.mp hx]

/-- One more entry, no START, is merged or kept at the tail. -/
theorem isMerged_mergeEntry {kept : List Entry} {e : Entry} (h : isMerged kept) (hunsent : e.isUnsent = true)
    (hstart : e.isStart = false) : isMerged (mergeEntry kept e) ∧ (mergeEntry kept e).length ≤ kept.length + 1 := by
  unfold mergeEntry
  split
  next source count level time hbody =>
    split
    · exact ⟨isMerged_update (Entry.alike_addOccurrences count) h, by simp⟩
    next hnone =>
      refine ⟨isMerged_append h hunsent hstart (fun source' hs => ?_) fun hl => ?_, by simp⟩
      · obtain rfl : source = source' := by simpa [Entry.source, hbody] using hs
        simpa using hnone
      · simp [Entry.isLoss, hbody] at hl
  next count time hbody =>
    split
    · exact ⟨isMerged_update (Entry.alike_addLosses count) h, by simp⟩
    next hnone =>
      refine ⟨isMerged_append h hunsent hstart (fun source' hs => ?_) fun _ => by simpa using hnone, by simp⟩
      simp [Entry.source, hbody] at hs
  next hbody => simp [Entry.isStart, hbody] at hstart
  next hbody =>
    exact ⟨isMerged_append h hunsent hstart (fun source' hs => by simp [Entry.source, hbody] at hs)
      fun hl => by simp [Entry.isLoss, hbody] at hl, by simp⟩

theorem isMerged_foldl {kept rest : List Entry} (h : isMerged kept) (hunsent : ∀ e ∈ rest, e.isUnsent = true)
    (hstart : ∀ e ∈ rest, e.isStart = false) :
    isMerged (rest.foldl mergeEntry kept) ∧ (rest.foldl mergeEntry kept).length ≤ kept.length + rest.length := by
  induction rest generalizing kept with
  | nil => exact ⟨h, le_refl _⟩
  | cons e rest ih =>
      obtain ⟨hmerged, hlength⟩ := isMerged_mergeEntry h (hunsent e (by simp)) (hstart e (by simp))
      obtain ⟨hall, htotal⟩ := ih hmerged (fun x hx => hunsent x (by simp [hx])) fun x hx => hstart x (by simp [hx])
      refine ⟨hall, ?_⟩
      rw [List.foldl_cons, List.length_cons]
      omega

theorem mergeEntry_nil (e : Entry) : mergeEntry [] e = [e] := by
  unfold mergeEntry
  split <;> rfl

theorem unsent_of_mem_revertAll {queue : List Entry} {e : Entry} (h : e ∈ revertAll queue) : e.isUnsent = true :=
  Entry.isUnsent_iff.mpr (delivery_of_mem_revertAll h)

theorem isMerged_mergeAll {queue : List Entry} (hstart : ∀ e ∈ queue.tail, e.isStart = false) :
    isMerged (mergeAll queue) ∧ (mergeAll queue).length ≤ queue.length := by
  cases queue with
  | nil => exact ⟨⟨List.Pairwise.nil, nofun⟩, le_refl _⟩
  | cons first rest =>
      have hsingle : isMerged [{ first with delivery := .unsent }] :=
        ⟨List.pairwise_singleton .., fun e he => by rw [List.mem_singleton.mp he]; rfl⟩
      have hrest : ∀ e ∈ revertAll rest, e.isStart = false := fun e he => by
        obtain ⟨x, hx, rfl⟩ := List.mem_map.mp he
        exact hstart x hx
      obtain ⟨hmerged, hlength⟩ := isMerged_foldl hsingle (fun _ => unsent_of_mem_revertAll) hrest
      have hall : mergeAll (first :: rest) = (revertAll rest).foldl mergeEntry [{ first with delivery := .unsent }] := by
        rw [mergeAll, revertAll, List.map_cons, List.foldl_cons, mergeEntry_nil]
        rfl
      rw [hall]
      refine ⟨hmerged, hlength.trans ?_⟩
      simp [revertAll]
      omega

/-- RESYNC leaves a lawful queue with nothing in flight (R162). -/
theorem Nq.lawful_resync (h : n.lawful) : n.resync.lawful ∧ n.resync.inFlight = [] := by
  obtain ⟨⟨hpairwise, hunsent⟩, hlength⟩ := isMerged_mergeAll (queue := n.queue) (by obtain ⟨-, -, -, -, -, -, -, h, -⟩ := h; exact h)
  have hinFlight : Nq.inFlight { n with queue := mergeAll n.queue } = [] :=
    List.filterMap_eq_nil_iff.mpr fun e he => Entry.number_eq_none.mpr (hunsent e he)
  have hcapacity := h.1
  have hmerged : Nq.lawful { n with queue := mergeAll n.queue } := by
    rw [Nq.lawful_iff, hinFlight]
    exact ⟨hlength.trans hcapacity, hpairwise, by simp, by simp, (Nq.lawful_iff.mp h).2.2.2.2⟩
  unfold Nq.resync
  split
  next hshorter =>
    obtain ⟨hlawful, hsame⟩ := Nq.lawful_carry hmerged (lt_of_lt_of_le hshorter hcapacity)
    exact ⟨hlawful, hsame.trans hinFlight⟩
  next => exact ⟨hmerged, hinFlight⟩

end Sys2Proof.Machine
end

section
/-! The law of notice delivery: the number offered to a first sending, the notice sender, and every step. -/

namespace Sys2Proof.Machine

/-! ### The number offered (R154) -/

theorem nextNotice_ne_zero (number : Byte) : nextNotice number ≠ 0 := by
  unfold nextNotice
  split
  · decide
  · bv_omega

theorem toNat_nextNotice {number : Byte} (h : number ≠ 0) :
    (nextNotice number).toNat = (number.toNat - 1 + 1) % 255 + 1 := by
  unfold nextNotice
  split
  next h255 => rw [h255]; rfl
  next => bv_omega

/-- The numbers from one on are those from 1 to 255 in a circle. -/
theorem toNat_iterate_nextNotice {number : Byte} (h : number ≠ 0) (k : Nat) :
    nextNotice^[k] number ≠ 0 ∧ (nextNotice^[k] number).toNat = (number.toNat - 1 + k) % 255 + 1 := by
  induction k with
  | zero =>
      refine ⟨h, ?_⟩
      simp only [Function.iterate_zero, id_eq]
      bv_omega
  | succ k ih =>
      obtain ⟨hne, hk⟩ := ih
      rw [Function.iterate_succ_apply']
      exact ⟨nextNotice_ne_zero _, by rw [toNat_nextNotice hne, hk]; omega⟩

/-- With at most four numbers in flight, the search ends at the first that no entry carries. -/
theorem offerNumber_of_few {carried : List Byte} {number : Byte} (h : number ≠ 0) (hfew : carried.length ≤ 4) :
    ∃ passed ≤ 4, offerNumber carried 255 number = nextNotice^[passed] number ∧
      (∀ k < passed, nextNotice^[k] number ∈ carried) ∧ offerNumber carried 255 number ∉ carried := by
  obtain ⟨passed, hpassed, heq, hcarried, hfree⟩ := offerNumber_spec carried 255 number
  have hinjective : ((List.range passed).map fun k => nextNotice^[k] number).Nodup := by
    refine List.nodup_range.map_on fun i hi j hj hij => ?_
    have hi := List.mem_range.mp hi
    have hj := List.mem_range.mp hj
    have hsame := congrArg BitVec.toNat hij
    rw [(toNat_iterate_nextNotice h i).2, (toNat_iterate_nextNotice h j).2] at hsame
    omega
  have hsubset : ((List.range passed).map fun k => nextNotice^[k] number) ⊆ carried := fun x hx => by
    obtain ⟨k, hk, rfl⟩ := List.mem_map.mp hx
    exact hcarried k (List.mem_range.mp hk)
  have hle := (hinjective.subperm hsubset).length_le
  rw [List.length_map, List.length_range] at hle
  exact ⟨passed, hle.trans hfew, heq, hcarried, heq ▸ hfree (by omega)⟩

theorem offerNumber_ne_zero {carried : List Byte} {number : Byte} (h : number ≠ 0) :
    offerNumber carried 255 number ≠ 0 := by
  obtain ⟨passed, -, heq, -⟩ := offerNumber_spec carried 255 number
  rw [heq]
  exact (toNat_iterate_nextNotice h passed).1

/-! ### A first sending -/

/-- In a lawful queue everything before the first UNSENT entry is IN_FLIGHT and everything behind it is UNSENT. -/
theorem Nq.split_of_find? {n : Nq} {e : Entry} (h : n.lawful) (hfind : n.queue.find? Entry.isUnsent = some e) :
    ∃ sent waiting, n.queue = sent ++ e :: waiting ∧ e.isUnsent = true ∧ (∀ x ∈ sent, x.isUnsent = false) ∧
      (∀ x ∈ waiting, x.isUnsent = true) ∧ n.inFlight = sent.filterMap Entry.number := by
  obtain ⟨he, sent, waiting, hqueue, hsent⟩ := List.find?_eq_some_iff_append.mp hfind
  have hpairwise := (Nq.lawful_iff.mp h).2.1
  rw [hqueue] at hpairwise
  have hwaiting : ∀ x ∈ waiting, x.isUnsent = true := fun x hx =>
    ((List.pairwise_cons.mp (List.pairwise_append.mp hpairwise).2.1).1 x hx).1 he
  refine ⟨sent, waiting, hqueue, he, fun x hx => by simpa using hsent x hx, hwaiting, ?_⟩
  rw [Nq.inFlight, hqueue, List.filterMap_append, List.filterMap_cons_none (Entry.number_eq_none.mpr he),
    List.filterMap_eq_nil_iff.mpr fun x hx => Entry.number_eq_none.mpr (hwaiting x hx), List.append_nil]

/-- The first UNSENT entry sent under a fresh number keeps the law, and its number is the last in flight. -/
theorem Nq.lawful_firstSending {n : Nq} {e : Entry} {number : Byte} (h : n.lawful)
    (hfind : n.queue.find? Entry.isUnsent = some e) (hroom : n.inFlight.length < 4) (hzero : number ≠ 0)
    (hfresh : number ∉ n.inFlight) :
    Nq.lawful { n with queue := updateFirst Entry.isUnsent (Entry.numbered number) n.queue } ∧
      Nq.inFlight { n with queue := updateFirst Entry.isUnsent (Entry.numbered number) n.queue } =
        n.inFlight ++ [number] := by
  obtain ⟨sent, waiting, hqueue, he, hsent, hwaiting, hnumbers⟩ := Nq.split_of_find? h hfind
  have hupdated : updateFirst Entry.isUnsent (Entry.numbered number) n.queue =
      sent ++ e.numbered number :: waiting := by
    rw [hqueue, updateFirst_of_split he hsent]
  have hinFlight : Nq.inFlight { n with queue := updateFirst Entry.isUnsent (Entry.numbered number) n.queue } =
      n.inFlight ++ [number] := by
    rw [Nq.inFlight, hupdated, hnumbers, List.filterMap_append,
      List.filterMap_cons_some (show (e.numbered number).number = some number from rfl),
      List.filterMap_eq_nil_iff.mpr fun x hx => Entry.number_eq_none.mpr (hwaiting x hx)]
  rw [Nq.lawful_iff] at h ⊢
  obtain ⟨hlength, hpairwise, hnotZero, -, hloss⟩ := h
  rw [hinFlight]
  refine ⟨⟨(length_updateFirst ..).trans_le hlength, ?_, fun hin => (List.mem_append.mp hin).elim hnotZero
    fun h0 => hzero (List.mem_singleton.mp h0).symm, by simp; omega, hloss⟩, rfl⟩
  rw [hqueue] at hpairwise
  obtain ⟨hpre, hrest, hcross⟩ := List.pairwise_append.mp hpairwise
  obtain ⟨hbehind, hpost⟩ := List.pairwise_cons.mp hrest
  rw [hupdated]
  refine List.pairwise_append.mpr ⟨hpre, List.pairwise_cons.mpr ⟨fun x hx => ?_, hpost⟩, fun x hx y hy => ?_⟩
  · obtain ⟨-, -, -, -, hstart⟩ := hbehind x hx
    refine ⟨fun _ => hwaiting x hx, fun _ _ _ hnumber => ?_, nofun, nofun, hstart⟩
    rw [Entry.number_eq_none.mpr (hwaiting x hx)] at hnumber
    cases hnumber
  · rcases List.mem_cons.mp hy with rfl | hy
    · obtain ⟨-, -, -, -, hstart⟩ := hcross x hx e (by simp)
      refine ⟨fun hunsent => ?_, fun k hk k' hk' => ?_, nofun, nofun, hstart⟩
      · rw [hsent x hx] at hunsent
        cases hunsent
      · obtain rfl : number = k' := Option.some.inj hk'
        rintro rfl
        exact hfresh (hnumbers ▸ List.mem_filterMap.mpr ⟨x, hx, hk⟩)
    · exact hcross x hx y (by simp [hy])

/-! ### The notice sender -/

variable {s t : State}

/-- The law of notice delivery looks at the queue with its loss record, the link settings and the sender, and on a STALLED
link at the receive buffer. -/
theorem State.noticesLawful_of_same (h : s.noticesLawful) (hqueue : t.nq.queue = s.nq.queue)
    (hcount : t.nq.lossCount = s.nq.lossCount) (htime : t.nq.firstLossTime = s.nq.firstLossTime)
    (hsettings : t.mlk.settings = s.mlk.settings) (hsender : t.mlk.sender = s.mlk.sender)
    (hbuffer : ∀ b ∈ t.mlk.buffer, b ∈ s.mlk.buffer ∨ b = Buffered.handed b.frame) : t.noticesLawful := by
  obtain ⟨hlawful, hlink, hnext, hretry, hround, hrunning, hstalled⟩ := h
  have hinFlight : t.nq.inFlight = s.nq.inFlight := congrArg (List.filterMap Entry.number) hqueue
  unfold State.noticesLawful State.senderLawful Nq.lawful
  rw [hinFlight, hqueue, hcount, htime, hsettings, hsender]
  refine ⟨hlawful, hlink, hnext, hretry, hround, hrunning, fun hlink => ?_⟩
  obtain ⟨htimer, hround, hflying, hhanded⟩ := hstalled hlink
  refine ⟨htimer, hround, hflying, fun b hb hkind => ?_⟩
  rcases hbuffer b hb with hold | hnew
  · exact hhanded b hold hkind
  · rw [hnew]
    exact hkind

theorem State.running_of_noticeClaim (h : s.noticeClaim = true) : s.mlk.sender.link = .running := by
  simp only [State.noticeClaim, Bool.and_eq_true, decide_eq_true_eq] at h
  exact h.1

/-- A claim without a resend to make is for a first sending inside the window (R152, R153). -/
theorem State.window_of_noticeClaim (h : s.noticeClaim = true) (hround : s.mlk.sender.roundList = []) :
    s.nq.inFlight.length < s.mlk.settings.window.toNat := by
  simp only [State.noticeClaim, hround, Bool.and_eq_true, decide_eq_true_eq, List.isEmpty_nil, Bool.not_true,
    Bool.false_or] at h
  exact h.2.1

theorem MsTimer.start_ne_stopped (ms : Nat) : MsTimer.start ms ≠ .stopped := nofun

/-- The law of notice delivery on a RUNNING link, which has nothing to say of the receive buffer. -/
theorem State.noticesLawful_of_running (hnq : s.nq.lawful) (hsettings : s.mlk.settings.lawful)
    (hlink : s.mlk.sender.link = .running) (hnext : s.mlk.sender.nextNumber ≠ 0) (hretry : s.mlk.sender.retryCount ≤ 15)
    (hround : s.mlk.sender.roundList.Sublist s.nq.inFlight)
    (htimer : s.mlk.sender.timer = .stopped ↔ s.nq.inFlight = []) : s.noticesLawful :=
  ⟨hnq, hsettings, hnext, hretry, hround, fun _ => htimer, fun hstalled => by rw [hlink] at hstalled; cases hstalled⟩

theorem State.noticesLawful_firstSending {e : Entry} (h : s.noticesLawful) (hclaim : s.noticeClaim = true)
    (hround : s.mlk.sender.roundList = []) (hfind : s.nq.queue.find? Entry.isUnsent = some e) :
    (s.firstSending e).noticesLawful := by
  obtain ⟨hlawful, hsettings, hnext, hretry, -, hrunning, -⟩ := h
  have hlink := State.running_of_noticeClaim hclaim
  have hroom : s.nq.inFlight.length < 4 :=
    lt_of_lt_of_le (State.window_of_noticeClaim hclaim hround) hsettings.2.1
  obtain ⟨-, -, -, -, hfresh⟩ := offerNumber_of_few (carried := s.nq.inFlight) hnext (by omega)
  obtain ⟨hqueue, hinFlight⟩ :=
    Nq.lawful_firstSending (number := s.offered) hlawful hfind hroom (offerNumber_ne_zero hnext) hfresh
  refine State.noticesLawful_of_running hqueue hsettings hlink (nextNotice_ne_zero _) hretry ?_ ?_
  · rw [show (s.firstSending e).mlk.sender.roundList = s.mlk.sender.roundList from rfl, hround]
    exact List.nil_sublist _
  · rw [State.firstSending_nq, hinFlight]
    refine iff_of_false ?_ (by simp)
    show (if s.nq.inFlightCount = 0 then MsTimer.start _ else s.mlk.sender.timer) ≠ _
    split
    next => exact MsTimer.start_ne_stopped _
    next hcount => exact fun hstopped => hcount (congrArg List.length ((hrunning hlink).mp hstopped))

theorem State.noticesLawful_resend {number : Byte} {rest : List Byte} (h : s.noticesLawful)
    (hlink : s.mlk.sender.link = .running) (hround : s.mlk.sender.roundList = number :: rest) :
    (s.resend number rest).noticesLawful := by
  obtain ⟨hlawful, hsettings, hnext, hretry, hsub, hrunning, -⟩ := h
  refine State.noticesLawful_of_running hlawful hsettings hlink hnext hretry ?_ (hrunning hlink)
  rw [hround] at hsub
  exact (List.sublist_cons_self ..).trans hsub

theorem State.noticesLawful_startNext (h : s.noticesLawful) : s.startNext.noticesLawful := by
  rcases s.startNext_cases with
    heq | ⟨heq, -⟩ | ⟨-, -, hclaim, ⟨number, rest, hround, heq⟩ | ⟨e, hround, hfind, heq⟩⟩ <;> rw [heq]
  · exact h
  · exact h
  · exact State.noticesLawful_resend h (State.running_of_noticeClaim hclaim) hround
  · exact State.noticesLawful_firstSending h hclaim hround hfind

/-- A change of the queue that leaves the numbers in flight keeps the law of the sender. -/
theorem State.noticesLawful_of_inFlight (h : s.noticesLawful) (hmlk : t.mlk = s.mlk)
    (hnq : t.nq.lawful ∧ t.nq.inFlight = s.nq.inFlight) : t.noticesLawful := by
  obtain ⟨-, hsettings, hsender⟩ := h
  refine ⟨hnq.1, hmlk ▸ hsettings, ?_⟩
  unfold State.senderLawful
  rw [hmlk, hnq.2]
  exact hsender

theorem State.noticesLawful_takePost (p : Post) (h : s.noticesLawful) : (s.takePost p).noticesLawful :=
  State.noticesLawful_startNext (s := (s.withNq (s.nq.takePost s.now p)).evaluate)
    (State.noticesLawful_of_inFlight h rfl (Nq.lawful_takePost s.now p h.1))

theorem State.takePost_link (p : Post) : (s.takePost p).mlk.sender.link = s.mlk.sender.link :=
  (State.startNext_conditions _).2

/-- A withdrawal waits for every post that was handed before it, and leaves the link as it was. -/
theorem State.noticesLawful_takePosts (h : s.noticesLawful) :
    s.takePosts.noticesLawful ∧ s.takePosts.mlk.sender.link = s.mlk.sender.link :=
  State.takePosts_keeps (P := fun t => t.noticesLawful ∧ t.mlk.sender.link = s.mlk.sender.link) ⟨h, rfl⟩
    fun _ p ht => ⟨State.noticesLawful_takePost p ht.1, (State.takePost_link p).trans ht.2⟩

theorem State.noticesLawful_acknowledged (numbers : List Byte) (h : s.noticesLawful)
    (hlink : s.mlk.sender.link = .running) :
    ((s.withNq (s.nq.acknowledgeAll numbers).1).withMlk (s.mlk.withSender
      (s.mlk.sender.acknowledged (s.nq.acked numbers) (s.nq.acknowledgeAll numbers).1.inFlightCount
        s.mlk.settings.retransmitMs))).noticesLawful := by
  obtain ⟨hlawful, hsettings, hnext, hretry, hround, hrunning, hstalled⟩ := h
  obtain ⟨hlawful', hinFlight⟩ := Nq.lawful_acknowledgeAll numbers hlawful
  cases hacked : s.nq.acked numbers with
  | nil =>
      rw [hacked] at hinFlight
      simp only [List.not_mem_nil, decide_false, Bool.not_false, List.filter_true] at hinFlight
      refine State.noticesLawful_of_running hlawful' hsettings hlink hnext hretry ?_ ?_ <;>
        simp only [State.withMlk_nq, State.withNq_nq, hinFlight]
      · exact hround
      · exact hrunning hlink
  | cons k rest =>
      rw [hacked] at hinFlight
      refine State.noticesLawful_of_running hlawful' hsettings hlink hnext (Nat.zero_le _) ?_ ?_
      · simp only [State.withMlk_nq, State.withNq_nq, hinFlight]
        exact hround.filter _
      · show (if (s.nq.acknowledgeAll numbers).1.inFlightCount = 0 then MsTimer.stopped else .start _) = _ ↔
          (s.nq.acknowledgeAll numbers).1.inFlight = []
        rw [← List.length_eq_zero_iff]
        split
        next hnone => exact iff_of_true rfl hnone
        next hsome => exact iff_of_false (MsTimer.start_ne_stopped _) hsome

theorem OwnerEffect.keeps_notices {a : Answer} (h : s.noticesLawful) (hlink : s.mlk.sender.link = .running)
    (ha : OwnerEffect s a) : a.state.noticesLawful := by
  obtain ⟨hlawful, hsettings, hnext, hretry, hround, hrunning, hstalled⟩ := id h
  cases ha with
  | unbound source fields =>
      have hposts := (State.noticesLawful_takePosts h).1
      exact State.noticesLawful_of_inFlight hposts rfl
        ⟨(Nq.lawful_removeFirst _ hposts.1).1, Nq.inFlight_withdraw source hposts.1⟩
  | acknowledged numbers fields => exact State.noticesLawful_acknowledged numbers h hlink
  | linkSet settings hlawfulSettings =>
      exact State.noticesLawful_of_running hlawful hlawfulSettings hlink hnext hretry hround (hrunning hlink)
  | resynced =>
      obtain ⟨hlawful', hinFlight⟩ := Nq.lawful_resync hlawful
      exact State.noticesLawful_of_running hlawful' hsettings rfl (show (1 : Byte) ≠ 0 by decide) (Nat.zero_le _)
        (List.nil_sublist _) (iff_of_true rfl hinFlight)
  | _ => exact h

/-! ### Every step -/

/-- A frame whose reception the receiver completes comes into the buffer with its indication handed. -/
theorem ReceiverEffect.buffer_of {m m' : Mlk} (h : ReceiverEffect m m') :
    m'.settings = m.settings ∧ ∀ b ∈ m'.buffer, b ∈ m.buffer ∨ b = Buffered.handed b.frame := by
  cases h with
  | startBit => exact ⟨rfl, fun _ => .inl⟩
  | mark => exact ⟨rfl, fun _ => .inl⟩
  | character byte =>
      obtain ⟨buffer, _, heq, hbuffer⟩ := m.receive_spec byte
      rw [heq]
      refine ⟨rfl, fun b hb => ?_⟩
      rcases hbuffer with rfl | ⟨f, -, -, rfl⟩
      · exact .inl hb
      · rcases List.mem_append.mp hb with hb | hb
        · exact .inl hb
        · rw [List.mem_singleton.mp hb]
          exact .inr rfl
  | fault =>
      unfold Mlk.abortFrame Mlk.withReceiver
      split <;> exact ⟨rfl, fun _ => .inl⟩
  | gapLimit =>
      unfold Mlk.abortFrame
      split <;> exact ⟨rfl, fun _ => .inl⟩

theorem State.noticesLawful_initial {settings : LinkSettings} (hsettings : settings.lawful)
    (hnq : s.nq.lawful ∧ s.nq.inFlight = []) (hmlk : s.mlk = Mlk.initial settings) : s.noticesLawful := by
  obtain ⟨hlawful, hnone⟩ := hnq
  refine State.noticesLawful_of_running hlawful ?_ ?_ ?_ ?_ ?_ ?_ <;> rw [hmlk]
  · exact hsettings
  · rfl
  · show (1 : Byte) ≠ 0
    decide
  · exact Nat.zero_le _
  · exact List.nil_sublist _
  · exact iff_of_true rfl hnone

theorem Nq.lawful_initial (cause : StartCause) : (Nq.initial cause).lawful ∧ (Nq.initial cause).inFlight = [] := by
  cases cause <;> decide

/-- A round begins on a RUNNING link that has entries IN_FLIGHT. -/
theorem State.noticesLawful_beginRound {retries : Nat} (h : s.noticesLawful) (hretries : retries ≤ 15)
    (hflying : s.nq.inFlight ≠ []) :
    (State.beginRound (s.withMlk (s.mlk.withSender
      { s.mlk.sender with link := .running, retryCount := retries }))).noticesLawful := by
  obtain ⟨hlawful, hsettings, hnext, -⟩ := h
  exact State.noticesLawful_of_running hlawful hsettings rfl hnext hretries (List.Sublist.refl _)
    (iff_of_false (MsTimer.start_ne_stopped _) hflying)

theorem State.noticesLawful_recover (h : s.noticesLawful) (hlink : s.mlk.sender.link = .stalled) :
    (s.withMlk s.mlk.takeIndication).recover.noticesLawful := by
  obtain ⟨hlawful, hsettings, hnext, -, -, -, hstalled⟩ := h
  obtain ⟨-, -, hflying, -⟩ := hstalled hlink
  exact State.noticesLawful_of_running hlawful hsettings rfl hnext (Nat.zero_le _) (List.Sublist.refl _)
    (iff_of_false (MsTimer.start_ne_stopped _) hflying)

/-- The timer that is due runs, so that the link is RUNNING with entries IN_FLIGHT. -/
theorem State.inFlight_of_due (h : s.noticesLawful) (hdue : s.mlk.sender.timer.due = true) :
    s.mlk.sender.link = .running ∧ s.nq.inFlight ≠ [] := by
  obtain ⟨-, -, -, -, -, hrunning, hstalled⟩ := h
  have htimer : s.mlk.sender.timer ≠ .stopped := fun hstopped => by
    rw [hstopped] at hdue
    cases hdue
  have hlink : s.mlk.sender.link = .running := by
    cases hlink : s.mlk.sender.link with
    | running => rfl
    | stalled => exact absurd (hstalled hlink).1 htimer
  exact ⟨hlink, fun hnone => htimer ((hrunning hlink).mpr hnone)⟩

theorem State.noticesLawful_stall (h : s.noticesLawful) (hdue : s.mlk.sender.timer.due = true) : s.stall.noticesLawful := by
  obtain ⟨-, hflying⟩ := State.inFlight_of_due h hdue
  obtain ⟨hlawful, hsettings, hnext, hretry, -⟩ := h
  refine ⟨hlawful, hsettings, hnext, hretry, List.nil_sublist _, nofun, fun _ => ⟨rfl, rfl, hflying, fun b hb hkind => ?_⟩⟩
  obtain ⟨x, -, rfl⟩ := List.mem_map.mp hb
  exact hkind

theorem State.noticesLawful_tick (h : s.noticesLawful) : s.tick.noticesLawful := by
  obtain ⟨hlawful, hsettings, hnext, hretry, hround, hrunning, hstalled⟩ := h
  refine ⟨hlawful, hsettings, hnext, hretry, hround, fun hlink => MsTimer.tick_eq_stopped.trans (hrunning hlink),
    fun hlink => ?_⟩
  obtain ⟨htimer, hrest⟩ := hstalled hlink
  exact ⟨MsTimer.tick_eq_stopped.mpr htimer, hrest⟩

theorem State.noticesLawful_takeFrame (h : s.noticesLawful) : s.takeFrame.noticesLawful :=
  State.noticesLawful_of_same h rfl rfl rfl rfl rfl fun _ hb => .inl (List.mem_of_mem_tail hb)

theorem LinkSettings.lawful_default : LinkSettings.default.lawful := by decide

theorem State.Effect.keeps_notices (h : s.noticesLawful) (he : s.Effect t) : t.noticesLawful := by
  obtain ⟨hlawful, hsettings, hnext, hretry, hround, hrunning, hstalled⟩ := id h
  cases he with
  | powerOnHigh req =>
      exact State.noticesLawful_startNext (State.noticesLawful_initial LinkSettings.lawful_default (Nq.lawful_initial _) rfl)
  | powerOnLow req => exact State.noticesLawful_initial LinkSettings.lawful_default (Nq.lawful_initial _) rfl
  | supplyDip =>
      have hempty : Nq.lawful { queue := [], lossCount := 0, firstLossTime := .none, posts := [] } := by decide
      exact State.noticesLawful_initial LinkSettings.lawful_default ⟨hempty, rfl⟩ rfl
  | enterReset => exact State.noticesLawful_initial hsettings (Nq.lawful_initial _) rfl
  | sampled src =>
      obtain ⟨_, _, heq⟩ := s.sample_eq src
      rw [heq]
      exact h
  | leaveReset req => exact State.noticesLawful_startNext (s := State.evaluate _) h
  | postTaken p rest => exact State.noticesLawful_takePost p h
  | received m hm =>
      obtain ⟨hsettings, hbuffer⟩ := hm.buffer_of
      exact State.noticesLawful_of_same h rfl rfl rfl hsettings hm.sender_eq hbuffer
  | indicationTaken hlink =>
      exact State.noticesLawful_of_running hlawful hsettings hlink hnext hretry hround (hrunning hlink)
  | recovered hlink => exact State.noticesLawful_recover h hlink
  | recoveredStarting hlink => exact State.noticesLawful_startNext (State.noticesLawful_recover h hlink)
  | badKind | duplicate =>
      exact State.noticesLawful_startNext
        (State.noticesLawful_of_same (State.noticesLawful_takeFrame h) rfl rfl rfl rfl rfl fun _ => .inl)
  | request kind f a hlive hfirst hkind howner =>
      have hlink : s.mlk.sender.link = .running := by
        cases hlink : s.mlk.sender.link with
        | running => rfl
        | stalled =>
            have hnot := State.nextFrame_of_stalled h.2.2 hlink hfirst
            rw [hkind, isRequestKind_code] at hnot
            cases hnot
      exact State.noticesLawful_startNext
        (State.noticesLawful_of_same (howner.keeps_notices (State.noticesLawful_takeFrame h) hlink) rfl rfl rfl rfl rfl
          fun _ => .inl)
  | frameSent =>
      obtain ⟨hsender, hbuffer, hsettings⟩ := s.mlk.endFrame_keeps
      exact State.noticesLawful_startNext
        (State.noticesLawful_of_same h rfl rfl rfl hsettings hsender fun b hb => .inl (hbuffer ▸ hb))
  | roundBegun hdue hbelow =>
      obtain ⟨hlink, hflying⟩ := State.inFlight_of_due h hdue
      obtain ⟨-, -, -, -, hfifteen⟩ := hsettings
      have hround := State.noticesLawful_beginRound (retries := s.mlk.sender.retryCount + 1) h (by omega) hflying
      rw [← hlink] at hround
      exact State.noticesLawful_startNext hround
  | stalled hdue => exact State.noticesLawful_stall h hdue
  | tick => exact State.noticesLawful_tick h
  | _ => exact h

/-- Settles O56: the queue is lawful entry by entry (`Nq.lawful_iff`), each change of it keeps that and says what it leaves in
flight, and the sender follows; no request is executed on a STALLED link. -/
theorem stepKeepsNoticeLaw : Obligations.StepKeepsNoticeLaw := by
  intro s t hs hstep
  exact step_keeps (P := State.noticesLawful) (fun _ _ h => h) (fun _ _ => State.Effect.keeps_notices) hs hstep

end Sys2Proof.Machine
end

section
/-! The step and the clocks: what a command leaves of the queue of commands and of the hub clock, when no event is taken,
saturating counts and timers; and the values, laws and codes that are written out. -/

namespace Sys2Proof.Machine

variable {s t : State}

/-! ### What every command leaves -/

/-- The owner of a request leaves the commands, the clock, the receive buffer and the reply queue. -/
theorem OwnerEffect.keeps_frame {a : Answer} (h : OwnerEffect s a) : a.state.tbu = s.tbu ∧
    a.state.pending = s.pending ∧ a.state.mlk.buffer = s.mlk.buffer ∧ a.state.mlk.replies = s.mlk.replies := by
  cases h with
  | unbound source fields =>
      obtain ⟨-, htbu, hpending, -, hbuffer⟩ := State.takePosts_frame (s := s)
      exact ⟨htbu, hpending, hbuffer, State.replies_takePosts⟩
  | _ => exact ⟨rfl, rfl, rfl, rfl⟩

theorem State.Effect.keeps_pending (h : s.Effect t) : t.pending = s.pending := by
  cases h with
  | request kind f a hlive hnext hkind howner =>
      rw [State.finish_pending]
      exact howner.keeps_frame.2.1
  | sampled src =>
      obtain ⟨_, _, heq⟩ := s.sample_eq src
      rw [heq]
  | powerOnHigh | leaveReset | recoveredStarting | badKind | duplicate | frameSent | roundBegun =>
      exact State.pending_startNext _
  | postTaken p rest => exact (State.takePost_frame _ p).1
  | _ => rfl

/-- Settles O2: every command has one of the listed effects (`exec_effect`), and none of them touches the commands. -/
theorem everyCommandAnswersNextState : Obligations.EveryCommandAnswersNextState := fun c s =>
  let ⟨t, hexec, heffect⟩ := exec_effect c s
  ⟨t, hexec, heffect.keeps_pending⟩

/-- Settles O1. -/
theorem stepTakesFrontCommand : Obligations.StepTakesFrontCommand := by
  refine ⟨fun _ _ _ => rfl, fun s h => ?_⟩
  rw [step, h]

/-! ### Counts and timers -/

theorem toNat_satAdd {w : Nat} (a b : BitVec w) : (satAdd a b).toNat = min (a.toNat + b.toNat) (2 ^ w - 1) := by
  have ha := a.isLt
  unfold satAdd
  split
  next h =>
    rw [BitVec.toNat_add, Nat.mod_eq_of_lt h]
    omega
  next h =>
    rw [BitVec.toNat_allOnes]
    omega

theorem toNat_satInc {w : Nat} (a : BitVec w) : (satInc a).toNat = min (a.toNat + 1) (2 ^ w - 1) := by
  rw [satInc, toNat_satAdd]
  cases w with
  | zero => simp
  | succ w =>
      have : (1#(w + 1)).toNat = 1 := by simp
      rw [this]

theorem toNat_elapsed (now start : Time) : (elapsed now start).toNat = min (now - start).toNat 65535 := by
  unfold elapsed
  split
  next h =>
    rw [BitVec.toNat_setWidth, Nat.mod_eq_of_lt h]
    omega
  next h =>
    rw [BitVec.toNat_allOnes]
    omega

theorem MsTimer.iterate_tick_start (n k : Nat) : MsTimer.tick^[k] (MsTimer.start n) = .running (n + 1 - k) := by
  induction k with
  | zero => rfl
  | succ k ih =>
      rw [Function.iterate_succ_apply', ih]
      rfl

/-- Settles O3: a timer counts down one by one from its length plus one (`MsTimer.iterate_tick_start`). -/
theorem countsSaturateAndTimersExpire : Obligations.CountsSaturateAndTimersExpire := by
  refine ⟨⟨fun _ => toNat_satAdd, fun _ => toNat_satInc, toNat_elapsed⟩, fun n k => ⟨fun hk => ?_, ?_⟩⟩
  · rw [MsTimer.iterate_tick_start, MsTimer.due, decide_eq_false_iff_not, MsTimer.running.injEq]
    omega
  · rw [MsTimer.iterate_tick_start, Nat.sub_self]
    rfl

/-! ### Requests at their owners -/

/-- The command executes requests of this kind at this owner, but for a MASK of the other mask value. -/
def executesAt (c : Instr) (kind : RequestKind) (owner : List Byte → State → Answer) : Prop :=
  (∀ body s, OwnerEffect s (owner body s)) ∧
  ∀ s, exec c s = .next (s.whenLive (s.execute kind owner)) ∨ exec c s = .next (s.whenLive s) ∧
    (c = .maskOn ∧ s.nextMaskValue = some false ∨ c = .maskOff ∧ s.nextMaskValue = some true)

theorem executesAt_of_exec {c : Instr} {kind : RequestKind} {owner : List Byte → State → Answer}
    (heffect : ∀ body s, OwnerEffect s (owner body s))
    (hexec : ∀ s, exec c s = .next (s.whenLive (s.execute kind owner))) : executesAt c kind owner :=
  ⟨heffect, fun s => .inl (hexec s)⟩

theorem executesAt_maskOn : executesAt .maskOn .mask maskOnOwner := by
  refine ⟨maskOnOwner_effect, fun s => ?_⟩
  show execMaskOn s = _ ∨ execMaskOn s = _ ∧ _
  unfold execMaskOn
  split
  next h => exact .inr ⟨rfl, .inl ⟨rfl, h⟩⟩
  next => exact .inl rfl

theorem executesAt_maskOff : executesAt .maskOff .mask maskOffOwner := by
  refine ⟨maskOffOwner_effect, fun s => ?_⟩
  show execMaskOff s = _ ∨ execMaskOff s = _ ∧ _
  unfold execMaskOff
  split
  next h => exact .inr ⟨rfl, .inr ⟨rfl, h⟩⟩
  next => exact .inl rfl

/-- Every request command executes its requests at an owner. -/
theorem exists_executesAt {c : Instr} {kind : RequestKind} (h : requestKind c = some kind) :
    ∃ owner, executesAt c kind owner := by
  cases c with
  | status => cases h; exact ⟨_, executesAt_of_exec statusOwner_effect fun _ => rfl⟩
  | bind => cases h; exact ⟨_, executesAt_of_exec bindOwner_effect fun _ => rfl⟩
  | unbind => cases h; exact ⟨_, executesAt_of_exec unbindOwner_effect fun _ => rfl⟩
  | sourceQuery => cases h; exact ⟨_, executesAt_of_exec sourceQueryOwner_effect fun _ => rfl⟩
  | maskOn => cases h; exact ⟨_, executesAt_maskOn⟩
  | maskOff => cases h; exact ⟨_, executesAt_maskOff⟩
  | service => cases h; exact ⟨_, executesAt_of_exec serviceOwner_effect fun _ => rfl⟩
  | pendingList => cases h; exact ⟨_, executesAt_of_exec pendingListOwner_effect fun _ => rfl⟩
  | lineSet => cases h; exact ⟨_, executesAt_of_exec lineSetOwner_effect fun _ => rfl⟩
  | lineQuery => cases h; exact ⟨_, executesAt_of_exec lineQueryOwner_effect fun _ => rfl⟩
  | channelSet => cases h; exact ⟨_, executesAt_of_exec channelSetOwner_effect fun _ => rfl⟩
  | assign => cases h; exact ⟨_, executesAt_of_exec assignOwner_effect fun _ => rfl⟩
  | channelQuery => cases h; exact ⟨_, executesAt_of_exec channelQueryOwner_effect fun _ => rfl⟩
  | revoke => cases h; exact ⟨_, executesAt_of_exec revokeOwner_effect fun _ => rfl⟩
  | noticeAck => cases h; exact ⟨_, executesAt_of_exec noticeAckOwner_effect fun _ => rfl⟩
  | linkSet => cases h; exact ⟨_, executesAt_of_exec linkSetOwner_effect fun _ => rfl⟩
  | resync => cases h; exact ⟨_, executesAt_of_exec resyncOwner_effect fun _ => rfl⟩
  | _ => cases h

/-! ### The hub clock -/

theorem State.tbu_whenLive (h : t.tbu = s.tbu) : (s.whenLive t).tbu = s.tbu := by
  unfold State.whenLive
  split
  · exact h
  · rfl

theorem State.tbu_ite {p : Prop} [Decidable p] (h : t.tbu = s.tbu) : (if p then t else s).tbu = s.tbu := by
  split
  · exact h
  · rfl

theorem State.tbu_execute {owner : List Byte → State → Answer} (kind : RequestKind)
    (h : ∀ body s, OwnerEffect s (owner body s)) : (s.execute kind owner).tbu = s.tbu := by
  unfold State.execute
  split
  · rfl
  · refine State.tbu_ite ?_
    rw [State.finish_tbu]
    exact (h _ _).keeps_frame.1

/-- No request changes the mode, the reference clock or the hub clock. -/
theorem tbu_of_request {c : Instr} {kind : RequestKind} (hkind : requestKind c = some kind) (h : exec c s = .next t) :
    t.tbu = s.tbu := by
  obtain ⟨owner, heffect, hexec⟩ := exists_executesAt hkind
  rcases hexec s with heq | ⟨heq, -⟩ <;> obtain rfl := Host.Outcome.next.inj (heq.symm.trans h)
  · exact State.tbu_whenLive (State.tbu_execute kind heffect)
  · exact State.tbu_whenLive rfl

theorem State.tbu_takePost (p : Post) (h : t.tbu = s.tbu) : (t.takePost p).tbu = s.tbu :=
  (t.takePost_frame p).2.1.trans h

theorem State.tbu_startNext_of (h : t.tbu = s.tbu) : t.startNext.tbu = s.tbu := (State.tbu_startNext t).trans h

theorem State.hubClock_whenLive (h : t.tbu = s.tbu) : (s.whenLive t).tbu.hubClock = s.tbu.hubClock :=
  congrArg Tbu.hubClock (State.tbu_whenLive h)

theorem hubClock_of_whenLive {u : State} (h : Host.Outcome.next (ρ := Refusal) (φ := Fault) (s.whenLive u) = .next t)
    (hu : u.tbu = s.tbu) : t.tbu.hubClock = s.tbu.hubClock :=
  Host.Outcome.next.inj h ▸ State.hubClock_whenLive hu

theorem State.tbu_sample (s : State) (src : Tbl 24 Level) : (s.sample src).tbu = s.tbu := by
  obtain ⟨_, _, heq⟩ := s.sample_eq src
  rw [heq]

theorem State.tbu_sampleEvent (s : State) (channel : Channel) (req done : Pins) :
    (s.applyGar (s.gar.sampleEvent channel req done s.now)).evaluate.tbu = s.tbu := by
  rw [State.evaluate_tbu, State.applyGar_tbu]

/-- The hub clock after a command that is no request: a reset sets it to 0, an increment increases it, and the others leave
it. -/
theorem hubClock_of_event {c : Instr} (hrequest : requestKind c = none) (h : exec c s = .next t) :
    t.tbu.hubClock = s.tbu.hubClock ∨
      (c = .hubClockIncrement ∧ t.tbu.hubClock = s.tbu.hubClock + 1) ∨
      (t.tbu.hubClock = 0 ∧ (c = .rstnLow ∨ c = .supplyDip ∨ ∃ rstn req, c = .powerOnReset rstn req)) := by
  cases c with
  | hubClockIncrement =>
      obtain rfl := Host.Outcome.next.inj h
      unfold State.whenLive
      split
      · exact .inr (.inl ⟨rfl, rfl⟩)
      · exact .inl rfl
  | rstnLow =>
      obtain rfl := Host.Outcome.next.inj h
      unfold State.whenLive
      split
      · exact .inr (.inr ⟨rfl, .inl rfl⟩)
      · exact .inl rfl
  | supplyDip =>
      obtain rfl := Host.Outcome.next.inj h
      exact .inr (.inr ⟨rfl, .inr (.inl rfl)⟩)
  | powerOnReset rstn req =>
      obtain rfl := Host.Outcome.next.inj h
      split
      · refine .inr (.inr ⟨?_, .inr (.inr ⟨rstn, req, rfl⟩)⟩)
        cases rstn with
        | high => exact congrArg Tbu.hubClock (State.tbu_startNext _)
        | low => rfl
      · exact .inl rfl
  | rstnRelease req =>
      obtain rfl := Host.Outcome.next.inj h
      split
      · exact .inl ((congrArg Tbu.hubClock (State.tbu_startNext _)).trans rfl)
      · exact .inl rfl
  | refclkStop | refclkReturn =>
      obtain rfl := Host.Outcome.next.inj h
      exact .inl rfl
  | sampleInstant src => exact .inl (hubClock_of_whenLive h (State.tbu_sample s src))
  | channelSampleEvent channel req done => exact .inl (hubClock_of_whenLive h (State.tbu_sampleEvent s channel req done))
  | levelChangeReport | joinTrigger | reminderTrigger | occupancyChange | widthTimerExpiry
  | gapTimerExpiry | rxdReturnToMark =>
      obtain rfl := Host.Outcome.next.inj h
      exact .inl (State.hubClock_whenLive rfl)
  | holdTimerExpiry | settleTimerExpiry | characterReceived | lengthError | frameReceived | framingFault
  | gapLimitExpiry =>
      obtain rfl := Host.Outcome.next.inj h
      exact .inl (State.hubClock_whenLive (State.tbu_ite rfl))
  | startBit =>
      obtain rfl := Host.Outcome.next.inj h
      refine .inl (State.hubClock_whenLive ?_)
      split <;> rfl
  | frameSent =>
      obtain rfl := Host.Outcome.next.inj h
      refine .inl (State.hubClock_whenLive ?_)
      split
      · rfl
      · exact State.tbu_startNext _
  | sourceEventPost | grantEventPost =>
      obtain rfl := Host.Outcome.next.inj h
      refine .inl (State.hubClock_whenLive ?_)
      split
      · exact State.tbu_takePost _ rfl
      · rfl
      · rfl
  | goodFrameIndication noticeFirst =>
      obtain rfl := Host.Outcome.next.inj h
      refine .inl (State.hubClock_whenLive (State.tbu_ite ?_))
      cases s.mlk.sender.link with
      | running => rfl
      | stalled =>
          cases noticeFirst with
          | true => exact State.tbu_startNext _
          | false => rfl
  | badKind =>
      obtain rfl := Host.Outcome.next.inj h
      refine .inl (State.hubClock_whenLive ?_)
      split
      · rfl
      · split
        · rfl
        · exact State.tbu_startNext _
  | duplicate =>
      obtain rfl := Host.Outcome.next.inj h
      refine .inl (State.hubClock_whenLive ?_)
      split
      · exact State.tbu_ite (State.tbu_startNext _)
      · rfl
      · rfl
  | retransmitTimerExpiry =>
      obtain rfl := Host.Outcome.next.inj h
      refine .inl (State.hubClock_whenLive (State.tbu_ite ?_))
      split
      · exact State.tbu_startNext _
      · rfl
  | _ => cases hrequest

theorem exec_of_live {c : Instr} {u : State} (hlive : s.live = true) (h : exec c s = .next (s.whenLive u)) :
    exec c s = .next u := by rw [h, State.whenLive_of_live hlive]

/-- Settles O4: by kind of command; a request goes through its owner (`tbu_of_request`). -/
theorem hubClockCountsIncrements : Obligations.HubClockCountsIncrements := by
  refine ⟨fun s hlive => exec_of_live hlive rfl, fun c s t h => ?_⟩
  cases hkind : requestKind c with
  | some kind => exact .inl (congrArg Tbu.hubClock (tbu_of_request hkind h))
  | none => exact hubClock_of_event hkind h

/-! ### The reference clock -/

/-- The commands that are taken, or not, by a condition of their own. -/
def Instr.isSystem : Instr → Prop
  | .powerOnReset _ _ | .rstnRelease _ | .refclkStop | .refclkReturn | .supplyDip => True
  | _ => False

/-- Every other command has no effect while no event is taken. -/
theorem exec_of_not_live {c : Instr} (hlive : s.live = false) (hc : ¬ Instr.isSystem c) : exec c s = .next s := by
  have hstays : ∀ u, s.whenLive u = s := State.whenLive_of_not_live hlive
  cases hkind : requestKind c with
  | some kind =>
      obtain ⟨owner, -, hexec⟩ := exists_executesAt hkind
      rcases hexec s with heq | ⟨heq, -⟩ <;> rw [heq, hstays]
  | none =>
      cases c with
      | powerOnReset | rstnRelease | refclkStop | refclkReturn | supplyDip => exact absurd trivial hc
      | status | bind | unbind | sourceQuery | maskOn | maskOff | service | pendingList | lineSet | lineQuery
      | channelSet | assign | channelQuery | revoke | noticeAck | linkSet | resync => cases hkind
      | _ => exact congrArg Host.Outcome.next (hstays _)

/-- Settles O9: a command is taken when events are (`exec_of_not_live`), or by a condition on the reset or the clock. -/
theorem referenceClockStopHoldsState : Obligations.ReferenceClockStopHoldsState := by
  refine ⟨fun s => ⟨rfl, rfl⟩, fun c s hclock hreturn hdip => ?_, fun c s hmode hstop hreturn hdip hpower hrelease => ?_⟩
  · have hlive : s.live = false := by simp [State.live, hclock]
    by_cases hsystem : Instr.isSystem c
    swap
    · exact exec_of_not_live hlive hsystem
    cases c with
    | powerOnReset rstn req => exact congrArg Host.Outcome.next (if_neg (by simp [hclock]))
    | rstnRelease req => exact congrArg Host.Outcome.next (if_neg (by simp [hclock]))
    | refclkStop =>
        obtain ⟨⟨mode, refclk, clock⟩, _⟩ := s
        cases hclock
        rfl
    | refclkReturn => exact absurd rfl hreturn
    | supplyDip => exact absurd rfl hdip
    | _ => cases hsystem
  · have hlive : s.live = false := by simp [State.live, hmode]
    refine exec_of_not_live hlive fun hsystem => ?_
    cases c with
    | powerOnReset rstn req => exact hpower rstn req rfl
    | rstnRelease req => exact hrelease req rfl
    | refclkStop => exact hstop rfl
    | refclkReturn => exact hreturn rfl
    | supplyDip => exact hdip rfl
    | _ => cases hsystem

/-! ### Values, laws and codes written out -/

/-- Settles O5: each table of the reset state is filled or built from one value. -/
theorem resetValues : Obligations.ResetValues := by
  refine ⟨rfl, fun _ => Tbl.read_fill .., fun _ => Tbl.read_fill .., fun _ => Tbl.read_fill .., fun _ => Tbl.read_fill ..,
    rfl, fun _ => Tbl.read_fill .., rfl, rfl, rfl, fun q => ?_, fun c => ?_, rfl, rfl⟩
  · exact (Gar.requester_initial _ q).trans (congrArg RequesterRecord.initial (Tbl.read_fill ..))
  · exact Gar.channel_initial _ c

/-- Reset is the end of power-on reset with RSTN high, at which START starts. -/
theorem State.reset_eq_startNext : State.reset = (State.powerOn .running (Tbl.fill 12 .low)).startNext := rfl

/-- Settles O53: the laws hold of the power-on values, and starting a frame keeps them. -/
theorem resetIsLawful : Obligations.ResetIsLawful := by
  unfold Obligations.ResetIsLawful
  rw [State.reset_eq_startNext]
  obtain ⟨htable, hexclusive⟩ :=
    State.routingLawful_startNext (s := State.powerOn .running (Tbl.fill 12 .low)) Rtu.routingLawful_initial
  refine ⟨htable, hexclusive, State.eventsHaveLevels_startNext ?_, State.linesLawful_startNext ?_,
    State.noticesLawful_startNext ?_, State.grantsLawful_startNext ?_, State.internalAgrees_startNext ?_,
    State.lawful_link_of_startNext ?_⟩
  · exact State.eventsHaveLevels_of_none (fun m => (Rtu.record_initial m).symm ▸ ⟨nofun, rfl⟩) rfl
  · exact State.linesLawful_powerOn .running (Tbl.fill 12 .low)
  · exact State.noticesLawful_initial LinkSettings.lawful_default (Nq.lawful_initial _) rfl
  · exact State.grantsLawful_powerOn ..
  · exact State.powerOn_internalAgrees .running (Tbl.fill 12 .low)
  · exact Mlk.lawful_initial _

theorem toNat_byteOf {n : Nat} (h : n < 256) : (byteOf n).toNat = n := by
  rw [byteOf, BitVec.toNat_ofNat, Nat.mod_eq_of_lt h]

/-- Settles O60. -/
theorem codesOfMessages : Obligations.CodesOfMessages := by
  have hline : ∀ l : Line, (Target.line l).code.toNat = l.val := fun l => toNat_byteOf (by omega)
  have hresult : ∀ r : Result, r.code ≠ 9 := fun r => by cases r <;> decide
  exact ⟨⟨rfl, hresult⟩, fun _ _ _ => ⟨rfl, rfl, rfl, rfl, rfl, rfl, rfl, rfl, rfl, rfl, rfl, rfl, rfl, rfl, rfl, rfl⟩,
    ⟨rfl, rfl⟩, ⟨rfl, rfl, rfl, rfl, rfl⟩, ⟨rfl, rfl⟩, ⟨hline, rfl⟩, ⟨rfl, rfl⟩, ⟨rfl, rfl⟩, ⟨rfl, rfl⟩, ⟨rfl, rfl⟩,
    ⟨rfl, rfl, rfl, rfl, rfl⟩, ⟨rfl, rfl, rfl⟩, ⟨rfl, rfl, rfl, rfl, rfl⟩, ⟨rfl, fun _ => rfl, fun _ => rfl⟩,
    ⟨rfl, rfl, rfl⟩,
    ⟨rfl, rfl, rfl, rfl, fun _ _ => ⟨rfl, rfl⟩, fun _ _ => ⟨rfl, rfl⟩, fun _ => rfl, rfl, rfl, rfl⟩,
    ⟨rfl, fun _ => rfl, fun _ => rfl⟩, ⟨rfl, rfl⟩, ⟨rfl, rfl⟩, ⟨rfl, rfl, rfl, rfl⟩, ⟨rfl, rfl, rfl⟩⟩

/-- GNT is high for the holder of a requester's assigned channel. -/
theorem State.gnt_eq_high {q : Requester} : s.gnt q = .high ↔
    ∃ c, (s.gar.requester q).assigned = some c ∧ (s.gar.channel c).phase = .held q := by
  unfold State.gnt Gar.gnt
  rw [show s.gar.requesters.read q = s.gar.requester q from rfl]
  cases (s.gar.requester q).assigned with
  | none => simp
  | some c =>
      simp only [show s.gar.channels.read c = s.gar.channel c from rfl]
      by_cases h : (s.gar.channel c).phase = .held q <;> simp [h]

/-- Settles O10: the pin by output, drive and polarity; and by the law of the arbiter the holder of a channel is assigned to
it. -/
theorem outputPinsFollowState : Obligations.OutputPinsFollowState := by
  refine ⟨fun x => ?_, fun s h q => State.gnt_eq_high.trans ⟨fun ⟨c, _, hheld⟩ => ⟨c, hheld⟩, fun ⟨c, hheld⟩ => ?_⟩⟩
  · obtain ⟨⟨enable, mode, polarity, drive, width, gap⟩, phase, owed, output⟩ := x
    refine ⟨?_, ?_, ?_, ?_⟩
    · rintro rfl
      rfl
    · rintro rfl rfl
      exact ⟨fun ho => by cases ho; rfl, fun ho => by cases ho; rfl⟩
    · rintro rfl rfl
      exact ⟨fun ho => by cases ho; rfl, fun ho => by cases ho; rfl⟩
    · rintro rfl rfl
      exact ⟨fun ho => by cases ho; rfl, fun ho => by cases ho; rfl⟩
  · obtain ⟨-, -, hphase⟩ := h
    obtain ⟨-, -, hholder, -⟩ := hphase c
    exact ⟨c, ((hholder q).mp hheld).1, hheld⟩

end Sys2Proof.Machine
end

section
/-! The resets, written out, and the occupancy of a LEVEL-mode line. -/

namespace Sys2Proof.Machine

variable {s : State}

/-! ### Power-on reset and a supply dip -/

/-- Settles O6: the power-on values are those of reset but for the REQ levels read, and START is all there is to send. -/
theorem powerOnResetAndSupplyDip : Obligations.PowerOnResetAndSupplyDip := by
  refine ⟨fun req s hclock => ⟨congrArg Host.Outcome.next (if_pos hclock), congrArg Host.Outcome.next (if_pos hclock)⟩,
    fun s => ⟨_, rfl, rfl, fun l => ?_, fun q => ?_, rfl, rfl⟩⟩
  · exact congrArg LineRecord.pin (Tbl.read_fill ..)
  · unfold State.gnt Gar.gnt
    rw [show (State.powerOn .powerOnReset (Tbl.fill 12 .low)).gar.requesters.read q = RequesterRecord.initial _ from
      Gar.requester_initial (Tbl.fill 12 .low) q]
    rfl

/-! ### RSTN taken low and released -/

theorem LineSettings.restingOutput_empty (x : LineSettings) :
    x.restingOutput false = if x.enable then .released else .off := by
  cases hmode : x.mode <;> simp [LineSettings.restingOutput, hmode]

theorem BindingRecord.cleared_eq (x : BindingRecord) : x.cleared = { x with
    status := if x.status = .unbound then .unbound else .idle
    again := false
    held := false } := by
  cases h : x.status <;> simp [BindingRecord.cleared, BindingRecord.isBound, h]

theorem RequesterRecord.cleared_eq (r : RequesterRecord) : r.cleared = { r with
    state := if r.assigned = none then .detached else .idle
    reqLevel := if r.assigned = none then r.reqLevel else .low } := by
  cases h : r.assigned <;> simp [RequesterRecord.cleared, h]

/-- Settles O7: block by block, each record read out of the table that was built. -/
theorem rstnLowKeepsConfigurationOnly : Obligations.RstnLowKeepsConfigurationOnly := by
  intro s hlive
  have hrefclk : s.tbu.refclk = true := by
    simp only [State.live, Bool.and_eq_true] at hlive
    exact hlive.2
  refine ⟨s.enterReset, exec_of_live hlive rfl, ?_, rfl, fun source => ?_, fun _ => Tbl.read_fill .., rfl, fun l => ?_, rfl,
    rfl, rfl, fun q => ?_, fun c => Gar.channel_cleared c, rfl, rfl⟩
  · exact congrArg (fun refclk => ({ mode := .resetLow, refclk := refclk, hubClock := 0 } : Tbu)) hrefclk
  · exact (Rtu.record_cleared source).trans (BindingRecord.cleared_eq _)
  · refine (Tbl.read_build ..).trans ?_
    rw [LineRecord.cleared, LineSettings.restingOutput_empty]
  · exact (Gar.requester_cleared q).trans (RequesterRecord.cleared_eq _)

theorem RequesterRecord.released_eq (r : RequesterRecord) (req : Level) : r.released req = { r with
    reqLevel := req
    doneLevel := none
    state := if r.assigned ≠ none ∧ req = .high then .blocked .reset else r.state } := by
  cases h : r.assigned <;> simp [RequesterRecord.released, h]

/-- With nothing to send but START, and the window open, the transmitter sends START as number 1. -/
theorem State.startNext_of_initial {cause : StartCause} {settings : LinkSettings} (hnq : s.nq = Nq.initial cause)
    (hmlk : s.mlk = Mlk.initial settings) (hwindow : 1 ≤ settings.window.toNat) : s.startNext = { s with
      nq := { Nq.initial cause with queue := [{ body := NoticeBody.startOf cause, delivery := .inFlight 1 }] }
      mlk := { Mlk.initial settings with
        tx := .notice ((NoticeBody.startOf cause).frame 1)
        sender := { Sender.initial with nextNumber := 2, timer := .start settings.retransmitMs } } } := by
  obtain ⟨tbu, scu, rtu, ald, nq, gar, mlk, pending⟩ := s
  subst hnq hmlk
  have hclaim : State.noticeClaim ⟨tbu, scu, rtu, ald, Nq.initial cause, gar, Mlk.initial settings, pending⟩ = true :=
    Bool.and_eq_true_iff.mpr ⟨rfl, Bool.or_eq_true_iff.mpr (.inr (Bool.and_eq_true_iff.mpr ⟨decide_eq_true hwindow, rfl⟩))⟩
  rw [State.startNext_of_claim rfl rfl, if_pos hclaim]
  rfl

/-- Settles O8: the release reads the REQ pins; after RSTN_LOW the queue holds START alone, which is sent first. -/
theorem rstnReleaseStartsNumbering : Obligations.RstnReleaseStartsNumbering := by
  refine ⟨fun req s hmode hclock => ?_, fun req s hlive hwindow => ?_⟩
  · have hreleased : s.gar.released req = { s.gar with requesters := Tbl.build fun q => { s.gar.requester q with
        reqLevel := req.read q
        doneLevel := none
        state :=
          if (s.gar.requester q).assigned ≠ none ∧ req.read q = .high then .blocked .reset
          else (s.gar.requester q).state } } :=
      congrArg (fun table => { s.gar with requesters := Tbl.build table })
        (funext fun q => RequesterRecord.released_eq (s.gar.requester q) (req.read q))
    rw [← hreleased]
    exact congrArg Host.Outcome.next (if_pos ⟨hmode, hclock⟩)
  · have hrefclk : s.tbu.refclk = true := by
      simp only [State.live, Bool.and_eq_true] at hlive
      exact hlive.2
    have hstart := State.startNext_of_initial (cause := .resetLine) (settings := s.mlk.settings)
      (s := State.evaluate { s.enterReset with
        tbu := { s.enterReset.tbu with mode := .running }, gar := s.enterReset.gar.released req }) rfl rfl hwindow
    refine ⟨s.enterReset, s.enterReset.leaveReset req, exec_of_live hlive rfl,
      congrArg Host.Outcome.next (if_pos ⟨rfl, hrefclk⟩), ?_⟩
    rw [State.leaveReset, hstart]
    exact ⟨rfl, rfl, rfl, rfl, rfl⟩

/-! ### Occupancy -/

theorem LineRecord.occupancy_eq (x : LineRecord) (r : Rtu) (l : Line) : x.occupancy (r.nonempty l) =
    if x.settings.mode = .level then { x with
      output :=
        if x.settings.enable = false then .off else if r.sets.read l = [] then .released else .asserted }
    else x := by
  rw [Rtu.nonempty_eq]
  unfold LineRecord.occupancy LineSettings.restingOutput
  cases hmode : x.settings.mode with
  | pulse => rfl
  | level =>
      cases henable : x.settings.enable with
      | false => rfl
      | true => by_cases hset : r.sets.read l = [] <;> simp [hset]

/-- Settles O17: the line's record by its mode; a PULSE-mode line is written back as it was. -/
theorem occupancyDrivesLevelLine : Obligations.OccupancyDrivesLevelLine := by
  intro l s hlive hmem
  refine exec_of_live hlive (congrArg (fun a => Host.Outcome.next (s.whenLive (s.withAld a))) ?_)
  rw [Ald.takeOccupancy, if_pos hmem, Ald.update, LineRecord.occupancy_eq]
  split
  · rfl
  · exact congrArg (fun lines => { s.ald with occupancy := s.ald.occupancy.erase l, lines := lines }) (Tbl.write_read ..)

end Sys2Proof.Machine
end

section
/-! The receiver: its timers and faults, one character by phase, and the characters of a whole frame. -/

namespace Sys2Proof.Machine

variable {s : State}

/-! ### Timers and faults -/

theorem Mlk.abortFrame_of_frame {m : Mlk} (h : m.receiver.receiving ≠ .hunt) : m.abortFrame = { m with
    receiver := { m.receiver with receiving := .hunt, gapTimer := false }
    counters := { m.counters with gapAborts := satInc m.counters.gapAborts } } :=
  if_pos (decide_eq_true h)

theorem Mlk.abortFrame_of_hunt {m : Mlk} (h : m.receiver.receiving = .hunt) : m.abortFrame = m :=
  if_neg (by simp [Receiving.inFrame, h])

/-- A start bit between characters begins one. -/
theorem exec_startBit_of_idle (hlive : s.live = true) (hin : s.mlk.receiver.inCharacter = false)
    (hmark : s.mlk.receiver.awaitMark = false) : exec .startBit s =
      .next (s.withMlk (s.mlk.withReceiver { s.mlk.receiver with inCharacter := true, gapTimer := false })) :=
  congrArg Host.Outcome.next ((State.whenLive_of_live hlive _).trans (if_neg (by simp [hin, hmark])))

/-- Settles O26: a fault and the gap limit abort the frame in progress (`Mlk.abortFrame_of_frame`); in HUNT there is none. -/
theorem receiverTimersAndFaults : Obligations.ReceiverTimersAndFaults := by
  intro s hlive
  refine ⟨exec_startBit_of_idle hlive, exec_of_live hlive rfl, fun hgap hframe => ?_, fun hin hframe => ?_, fun hin hhunt => ?_⟩ <;>
    refine (congrArg Host.Outcome.next (State.whenLive_of_live hlive _)).trans (congrArg Host.Outcome.next ?_)
  · rw [if_pos hgap, Mlk.abortFrame_of_frame hframe]
    rfl
  · rw [if_pos hin, Mlk.abortFrame_of_frame hframe]
    rfl
  · rw [if_pos hin, Mlk.abortFrame_of_hunt hhunt]
    rfl

/-! ### One character -/

theorem isRequestKind_eq (kind : Byte) : isRequestKind kind = decide (0x10 ≤ kind.toNat ∧ kind.toNat ≤ 0x1F) :=
  (Bool.decide_and ..).symm

theorem exec_characterReceived_of_live {b : Byte} (hlive : s.live = true) (hin : s.mlk.receiver.inCharacter = true) :
    exec (.characterReceived b) s = .next (s.withMlk (s.mlk.receive b)) :=
  congrArg Host.Outcome.next ((State.whenLive_of_live hlive _).trans (if_pos hin))

/-- LENGTH_ERROR is the reception of a length byte above 40. -/
theorem exec_lengthError_of_live {b k tag : Byte} (hlive : s.live = true) (hin : s.mlk.receiver.inCharacter = true)
    (hphase : s.mlk.receiver.receiving = .length k tag) (hlong : 40 < b.toNat) :
    exec (.lengthError b) s = .next (s.withMlk (s.mlk.receive b)) := by
  have hlong : Config.maxBody < b.toNat := hlong
  refine congrArg Host.Outcome.next ((State.whenLive_of_live hlive _).trans (if_pos ?_))
  simp [hin, hphase, Receiving.atLength, hlong]

/-- FRAME_RECEIVED is the reception of the second check byte. -/
theorem exec_frameReceived_of_live {b k tag n high : Byte} {bytes : List Byte} (hlive : s.live = true)
    (hin : s.mlk.receiver.inCharacter = true) (hphase : s.mlk.receiver.receiving = .checkLow k tag n bytes high) :
    exec (.frameReceived b) s = .next (s.withMlk (s.mlk.receive b)) := by
  refine congrArg Host.Outcome.next ((State.whenLive_of_live hlive _).trans (if_pos ?_))
  simp [hin, hphase, Receiving.atLastCheck]

/-- A character that completes nothing moves the receiver on. -/
theorem Mlk.receive_of_none {m : Mlk} {b : Byte} {next : Receiving} (h : m.receiver.receiving.take b = (next, .none)) :
    m.receive b = { m with receiver := { m.receiver with
      receiving := next, gapTimer := decide (next ≠ .hunt), inCharacter := false } } :=
  Mlk.receive_eq h

theorem Mlk.receive_of_good {m : Mlk} {b : Byte} {f : Frame} (h : m.receiver.receiving.take b = (.hunt, .good f))
    (hroom : m.buffer.length < 2) : m.receive b = { m with
      receiver := { m.receiver with receiving := .hunt, gapTimer := false, inCharacter := false }
      buffer := m.buffer ++ [{ frame := f, indication := decide (0x10 ≤ f.kind.toNat ∧ f.kind.toNat ≤ 0x1F) }] } := by
  rw [Mlk.receive_eq h, ← isRequestKind_eq]
  exact Mlk.offer_of_room f hroom

theorem Mlk.receive_of_good_full {m : Mlk} {b : Byte} {f : Frame} (h : m.receiver.receiving.take b = (.hunt, .good f))
    (hfull : 2 ≤ m.buffer.length) : m.receive b = { m with
      receiver := { m.receiver with receiving := .hunt, gapTimer := false, inCharacter := false }
      counters := { m.counters with overruns := satInc m.counters.overruns } } := by
  rw [Mlk.receive_eq h]
  exact Mlk.offer_of_full f hfull

/-- Settles O27: phase by phase what the character leads to (`Receiving.take_…`), and what it completes. -/
theorem charactersMakeFrames : Obligations.CharactersMakeFrames := by
  refine ⟨fun b s next hlive hin hphase => ?_, fun b k tag s c hlive hin hphase hlong hc => ?_,
    fun b k tag n high bytes s c hlive hin hphase hc => ?_⟩
  · have htake : s.mlk.receiver.receiving.take b = (next, .none) := by
      rcases hphase with ⟨h, rfl, rfl⟩ | ⟨h, hb, rfl⟩ | ⟨h, rfl⟩ | ⟨k, h, rfl⟩ | ⟨k, t, h, rfl, rfl⟩ |
        ⟨k, t, h, hlow, hhigh, rfl⟩ | ⟨k, t, n, sofar, h, hmore, rfl⟩ | ⟨k, t, n, sofar, h, hlast, rfl⟩ |
        ⟨k, t, n, bytes, h, rfl⟩ <;> rw [h]
      · exact Receiving.take_hunt_sync
      · exact Receiving.take_hunt_other hb
      · rfl
      · rfl
      · exact Receiving.take_length_zero k t
      · exact Receiving.take_length_body k t hlow hhigh
      · exact Receiving.take_body_more k t hmore
      · exact Receiving.take_body_last k t hlast
      · rfl
    rw [exec_characterReceived_of_live hlive hin, Mlk.receive_of_none htake]
    rfl
  · have hexec : exec c s = .next (s.withMlk (s.mlk.receive b)) := by
      rcases hc with rfl | rfl
      · exact exec_lengthError_of_live hlive hin hphase hlong
      · exact exec_characterReceived_of_live hlive hin
    have htake : s.mlk.receiver.receiving.take b = (.hunt, .lengthError) := by
      rw [hphase]
      exact Receiving.take_length_error k tag hlong
    rw [hexec, Mlk.receive_eq htake]
    rfl
  · have hexec : exec c s = .next (s.withMlk (s.mlk.receive b)) := by
      rcases hc with rfl | rfl
      · exact exec_frameReceived_of_live hlive hin hphase
      · exact exec_characterReceived_of_live hlive hin
    refine ⟨fun hbad => ?_, fun hgood hroom => ?_, fun hgood hfull => ?_⟩
    · have htake : s.mlk.receiver.receiving.take b = (.hunt, .checkError) := by
        rw [hphase]
        exact Receiving.take_check_bad hbad
      rw [hexec, Mlk.receive_eq htake]
      rfl
    · have htake : s.mlk.receiver.receiving.take b = (.hunt, .good { kind := k, tag := tag, body := bytes }) := by
        rw [hphase]
        exact Receiving.take_check_good hgood
      rw [hexec, Mlk.receive_of_good htake hroom]
      rfl
    · have htake : s.mlk.receiver.receiving.take b = (.hunt, .good { kind := k, tag := tag, body := bytes }) := by
        rw [hphase]
        exact Receiving.take_check_good hgood
      rw [hexec, Mlk.receive_of_good_full htake hfull]
      rfl

/-! ### The characters of a frame -/

/-- The bytes, one by one, complete nothing and lead the receiver from one phase to another. -/
def Receiving.leads : Receiving → List Byte → Receiving → Prop
  | r, [], r' => r' = r
  | r, b :: rest, r' => ∃ next, r.take b = (next, .none) ∧ Receiving.leads next rest r'

theorem Receiving.leads_append {r r' r'' : Receiving} {bytes more : List Byte} (h : r.leads bytes r')
    (h' : r'.leads more r'') : r.leads (bytes ++ more) r'' := by
  induction bytes generalizing r with
  | nil =>
      cases h
      exact h'
  | cons b rest ih =>
      obtain ⟨next, htake, hrest⟩ := h
      exact ⟨next, htake, ih hrest⟩

/-- The last bytes of a body. -/
theorem Receiving.leads_body {k t n : Byte} {sofar body : List Byte} (hne : body ≠ [])
    (hlength : sofar.length + body.length = n.toNat) :
    Receiving.leads (.body k t n sofar) body (.checkHigh k t n (sofar ++ body)) := by
  induction body generalizing sofar with
  | nil => exact absurd rfl hne
  | cons b rest ih =>
      rw [List.length_cons] at hlength
      cases rest with
      | nil => exact ⟨_, Receiving.take_body_last k t hlength, rfl⟩
      | cons b' rest =>
          have hlonger : (sofar ++ [b]).length + (b' :: rest).length = n.toNat := by
            rw [List.length_append, List.length_singleton]
            omega
          have hmore := ih (sofar := sofar ++ [b]) (List.cons_ne_nil _ _) hlonger
          rw [List.append_assoc] at hmore
          refine ⟨_, Receiving.take_body_more k t ?_, hmore⟩
          rw [List.length_cons] at hlength
          omega

/-- A frame up to its first check byte. -/
theorem Receiving.leads_frame (f : Frame) (high : Byte) (hbody : f.body.length ≤ 40) :
    Receiving.leads .hunt (0xC3 :: f.covered ++ [high])
      (.checkLow f.kind f.tag (byteOf f.body.length) f.body high) := by
  have hlength : (byteOf f.body.length).toNat = f.body.length := toNat_byteOf (by omega)
  have hheader : Receiving.leads (.length f.kind f.tag) (byteOf f.body.length :: f.body)
      (.checkHigh f.kind f.tag (byteOf f.body.length) f.body) := by
    by_cases hempty : f.body = []
    · rw [hempty]
      exact ⟨_, Receiving.take_length_zero f.kind f.tag, rfl⟩
    · have hpos := List.length_pos_iff.mpr hempty
      refine ⟨_, Receiving.take_length_body f.kind f.tag (by omega) (by omega), ?_⟩
      exact Receiving.leads_body (sofar := []) hempty (by rw [hlength]; simp)
  have hcovered : Receiving.leads .hunt (0xC3 :: f.covered) (.checkHigh f.kind f.tag (byteOf f.body.length) f.body) :=
    ⟨_, Receiving.take_hunt_sync, _, rfl, _, rfl, hheader⟩
  exact Receiving.leads_append hcovered ⟨_, rfl, rfl⟩

/-- The part with its receiver between two characters in a phase, in which the gap timer runs inside a frame. -/
def State.hearing (s : State) (r : Receiving) : State :=
  s.withMlk { s.mlk with
    receiver := { receiving := r, gapTimer := decide (r ≠ .hunt), inCharacter := false, awaitMark := false } }

/-- A start bit and its character, between characters and not waiting for mark. -/
theorem run_character {b : Byte} {next : Receiving} (k : Nat) (rest : List Instr) (hlive : s.live = true)
    (hin : s.mlk.receiver.inCharacter = false) (hmark : s.mlk.receiver.awaitMark = false)
    (htake : s.mlk.receiver.receiving.take b = (next, .none)) :
    core.run (k + 2) (s.withPending (.startBit :: .characterReceived b :: rest)) =
      core.run k ((s.hearing next).withPending rest) := by
  let t : State := (s.withPending (.characterReceived b :: rest)).withMlk
    (s.mlk.withReceiver { s.mlk.receiver with inCharacter := true, gapTimer := false })
  have hstart : core.step (s.withPending (.startBit :: .characterReceived b :: rest)) = .next t :=
    exec_startBit_of_idle (s := s.withPending (.characterReceived b :: rest)) hlive hin hmark
  have hcharacter : core.step t = .next ((s.hearing next).withPending rest) := by
    refine (exec_characterReceived_of_live (s := t.withPending rest) hlive rfl).trans ?_
    rw [Mlk.receive_of_none (m := (t.withPending rest).mlk) htake]
    show Host.Outcome.next { s with pending := rest, mlk := { s.mlk with
      receiver := { receiving := next, gapTimer := _, inCharacter := false, awaitMark := s.mlk.receiver.awaitMark } } } = _
    rw [hmark]
    rfl
  simp only [Host.Core.run, hstart, hcharacter]

/-- The characters of bytes that complete nothing. -/
theorem run_hear {r r' : Receiving} {bytes : List Byte} (more : List Byte) (hlive : s.live = true)
    (h : r.leads bytes r') : core.run (hear (bytes ++ more)).length ((s.hearing r).withPending (hear (bytes ++ more))) =
      core.run (hear more).length ((s.hearing r').withPending (hear more)) := by
  induction bytes generalizing r with
  | nil =>
      cases h
      rfl
  | cons b rest ih =>
      obtain ⟨next, htake, hrest⟩ := h
      rw [← ih hrest]
      exact run_character (s := s.hearing r) _ _ hlive rfl rfl htake

/-- The last character of a good frame puts it into a receive buffer with room. -/
theorem run_last_character {b : Byte} {r : Receiving} {f : Frame} (hlive : s.live = true)
    (htake : r.take b = (.hunt, .good f)) (hroom : s.mlk.buffer.length < 2) :
    core.run 2 ((s.hearing r).withPending (hear [b])) = .next { s with
      pending := []
      mlk := { s.mlk with
        receiver := { receiving := .hunt, gapTimer := false, inCharacter := false, awaitMark := false }
        buffer := s.mlk.buffer ++
          [{ frame := f, indication := decide (0x10 ≤ f.kind.toNat ∧ f.kind.toNat ≤ 0x1F) }] } } := by
  let t : State := ((s.hearing r).withPending [.characterReceived b]).withMlk
    ((s.hearing r).mlk.withReceiver { (s.hearing r).mlk.receiver with inCharacter := true, gapTimer := false })
  have hstart : core.step ((s.hearing r).withPending (hear [b])) = .next t :=
    exec_startBit_of_idle (s := (s.hearing r).withPending [.characterReceived b]) hlive rfl rfl
  have hcharacter : core.step t = .next ((t.withPending []).withMlk ((t.withPending []).mlk.receive b)) :=
    exec_characterReceived_of_live (s := t.withPending []) hlive rfl
  simp only [Host.Core.run, hstart, hcharacter]
  rw [Mlk.receive_of_good (m := (t.withPending []).mlk) htake hroom]
  rfl

/-- Settles O28: the bytes up to the first check byte lead to the second (`Receiving.leads_frame`), which completes the frame
by the check value they were sent with. -/
theorem frameBytesAreReceivedAsFrame : Obligations.FrameBytesAreReceivedAsFrame := by
  intro f s hbody hlive hhunt hin hmark hroom
  obtain ⟨high, low, hcheck, hbytes⟩ := be16_eq (crc16 f.covered)
  obtain ⟨next, htake, hrest⟩ := Receiving.leads_frame f high hbody
  have hbytes : f.bytes = 0xC3 :: ((f.covered ++ [high]) ++ [low]) := by
    rw [Frame.bytes, hbytes, List.append_assoc]
    rfl
  have hgood : Receiving.take low (.checkLow f.kind f.tag (byteOf f.body.length) f.body high) = (.hunt, .good f) :=
    Receiving.take_check_good hcheck.symm
  calc core.run (hear f.bytes).length (s.withPending (hear f.bytes))
    _ = core.run (hear ((f.covered ++ [high]) ++ [low])).length
          ((s.hearing next).withPending (hear ((f.covered ++ [high]) ++ [low]))) := by
        rw [hbytes]
        exact run_character _ _ hlive hin hmark (hhunt ▸ htake)
    _ = core.run 2
          ((s.hearing (.checkLow f.kind f.tag (byteOf f.body.length) f.body high)).withPending (hear [low])) :=
        run_hear [low] hlive hrest
    _ = _ := run_last_character hlive hgood hroom

end Sys2Proof.Machine
end

section
/-! The transmitter, the notice sender's events, and the frames the dispatcher answers without an owner. -/

namespace Sys2Proof.Machine

variable {s : State}

/-! ### Starting a frame -/

theorem State.noticeClaim_iff : s.noticeClaim = true ↔ s.mlk.sender.link = .running ∧ (s.mlk.sender.roundList ≠ [] ∨
    (s.nq.inFlight.length < s.mlk.settings.window.toNat ∧ ∃ e ∈ s.nq.queue, e.delivery = .unsent)) := by
  have hcount : s.nq.inFlightCount = s.nq.inFlight.length := rfl
  simp [State.noticeClaim, ← hcount, Entry.isUnsent_iff]

theorem Entry.hasNumber_eq_false {number : Byte} {e : Entry} (h : e.delivery ≠ .inFlight number) :
    e.hasNumber number = false := decide_eq_false h

theorem Entry.isUnsent_eq_false {e : Entry} (h : e.delivery ≠ .unsent) : e.isUnsent = false := decide_eq_false h

/-- Settles O31: by what is being sent, the replies and the claim; the resent entry is found under its number. -/
theorem transmitterStartsReplyThenResend : Obligations.TransmitterStartsReplyThenResend := by
  refine ⟨fun s => ⟨s.startNext_of_sending, fun hidle hreplies => ?_, fun hidle hreplies hclaim => ?_,
    State.noticeClaim_iff⟩, fun s number rest before after body hidle hreplies hlink hround hqueue hbefore => ?_⟩
  · rw [State.startNext_of_reply hreplies, if_pos hidle]
  · rw [State.startNext_of_claim hidle hreplies, hclaim]
    rfl
  · have hclaim : s.noticeClaim = true := State.noticeClaim_iff.mpr ⟨hlink, .inl (by simp [hround])⟩
    have hfind : s.nq.queue.find? (Entry.hasNumber number) = some { body := body, delivery := .inFlight number } := by
      rw [hqueue]
      exact find?_of_split (decide_eq_true rfl) fun e he => Entry.hasNumber_eq_false (hbefore e he)
    rw [State.startNext_of_claim hidle hreplies, if_pos hclaim]
    simp only [State.startNotice, hround, State.resend, hfind]
    rfl

/-- Settles O32: the number offered is the first that no entry carries (`offerNumber_of_few`). -/
theorem firstSendingNumbersEntry : Obligations.FirstSendingNumbersEntry := by
  intro s before after body hlawful hidle hreplies hlink hround hwindow hqueue hbefore
  obtain ⟨⟨-, -, -, -, hfour, -⟩, -, hnext, -⟩ := hlawful
  obtain ⟨passed, -, hoffered, hcarried, hfresh⟩ := offerNumber_of_few hnext hfour
  have hsplit : ∀ e ∈ before, e.isUnsent = false := fun e he => Entry.isUnsent_eq_false (hbefore e he)
  have hclaim : s.noticeClaim = true :=
    State.noticeClaim_iff.mpr ⟨hlink, .inr ⟨hwindow, { body := body, delivery := .unsent }, by simp [hqueue], rfl⟩⟩
  have hfind : s.nq.queue.find? Entry.isUnsent = some { body := body, delivery := .unsent } := by
    rw [hqueue]
    exact find?_of_split rfl hsplit
  have hupdated : updateFirst Entry.isUnsent (Entry.numbered s.offered) s.nq.queue =
      before ++ { body := body, delivery := .inFlight s.offered } :: after := by
    rw [hqueue]
    exact updateFirst_of_split rfl hsplit
  have hcount : s.nq.inFlightCount = 0 ↔ s.nq.inFlight = [] := List.length_eq_zero_iff
  refine ⟨passed, hcarried, hoffered ▸ hfresh, ?_⟩
  have hstart : s.startNotice = s.firstSending { body := body, delivery := .unsent } := by
    simp only [State.startNotice, hround, hfind]
  rw [← hoffered, State.startNext_of_claim hidle hreplies, if_pos hclaim, hstart, ← if_congr hcount rfl rfl]
  exact (congrArg (fun queue => { s.firstSending { body := body, delivery := .unsent } with
    nq := { s.nq with queue := queue } }) hupdated)

/-! ### The end of a frame -/

theorem exec_frameSent_of_sending (hlive : s.live = true) (h : s.mlk.tx ≠ .idle) :
    exec .frameSent s = .next (s.withMlk s.mlk.endFrame).startNext :=
  congrArg Host.Outcome.next ((State.whenLive_of_live hlive _).trans (if_neg h))

/-- Settles O33: one equation of the end of a frame for a notice, a reply, and a reply with a rate switch. -/
theorem frameSentEndsFrame : Obligations.FrameSentEndsFrame := by
  intro s hlive
  refine ⟨fun f htx => ?_, fun r rest htx hreplies hswitch => ?_, fun r rest rate htx hreplies hswitch => ?_⟩ <;>
    rw [exec_frameSent_of_sending hlive (by rw [htx]; nofun)]
  · simp only [Mlk.endFrame, htx]
    rfl
  · simp only [Mlk.endFrame, htx, hreplies, List.head?_cons, Option.bind_some, hswitch, List.tail_cons]
    rfl
  · simp only [Mlk.endFrame, htx, hreplies, List.head?_cons, Option.bind_some, hswitch, List.tail_cons]
    rfl

/-! ### The good-frame indication and the retransmit timer -/

theorem State.isDuplicate_of_not_request {f : Frame} (h : isRequestKind f.kind = false) : s.isDuplicate f = false := by
  simp [State.isDuplicate, h]

theorem exec_duplicate_of_live (hlive : s.live = true) {f : Frame} (hnext : s.nextFrame = some f)
    (h : s.isDuplicate f = false) : exec .duplicate s = .next s := by
  refine congrArg Host.Outcome.next ((State.whenLive_of_live hlive _).trans ?_)
  rw [hnext]
  cases s.mlk.saved with
  | none => rfl
  | some saved => exact if_neg (by simp [h])

theorem exec_duplicate_of_none (hnext : s.nextFrame = none) : exec .duplicate s = .next s := by
  refine congrArg Host.Outcome.next ?_
  rw [hnext]
  unfold State.whenLive
  split <;> rfl

/-- While the link is STALLED, no request is executed and no duplicate answered (R157, R161). -/
theorem exec_of_stalled {c : Instr} (hlawful : s.noticesLawful) (hlink : s.mlk.sender.link = .stalled)
    (hc : requestKind c ≠ none ∨ c = .duplicate) : exec c s = .next s := by
  obtain ⟨-, -, hsender⟩ := hlawful
  have hstays : s.whenLive s = s := by
    unfold State.whenLive
    split <;> rfl
  rcases hc with hrequest | rfl
  · obtain ⟨kind, hkind⟩ := Option.ne_none_iff_exists'.mp hrequest
    obtain ⟨owner, -, hexec⟩ := exists_executesAt hkind
    rcases hexec s with heq | ⟨heq, -⟩ <;> rw [heq]
    · rw [State.execute_of_stalled hsender hlink, hstays]
    · rw [hstays]
  · cases hnext : s.nextFrame with
    | none => exact exec_duplicate_of_none hnext
    | some f =>
        cases hlive : s.live with
        | false => exact exec_of_not_live hlive id
        | true =>
            exact exec_duplicate_of_live hlive hnext
              (State.isDuplicate_of_not_request (State.nextFrame_of_stalled hsender hlink hnext))

/-- Settles O34: the oldest indication is taken, and on a STALLED link the recovery follows; before it the dispatcher's next
frame is no request. -/
theorem goodFrameIndicationEndsStall : Obligations.GoodFrameIndicationEndsStall := by
  refine ⟨fun noticeFirst s before after f hlive hbuffer hbefore => ?_, fun c s => exec_of_stalled⟩
  have hany : s.mlk.buffer.any Buffered.indication = true := by
    rw [hbuffer]
    exact any_of_split rfl
  have htaken : s.mlk.takeIndication =
      { s.mlk with buffer := before ++ { frame := f, indication := false } :: after } := by
    rw [Mlk.takeIndication, hbuffer, updateFirst_of_split rfl hbefore]
  refine ⟨fun hlink => ?_, fun hlink => ?_⟩ <;>
    refine congrArg Host.Outcome.next ((State.whenLive_of_live hlive _).trans ((if_pos hany).trans ?_)) <;>
    simp only [hlink, htaken] <;> rfl

/-- Settles O35: the due timer begins a round below the retry limit and stalls the link at it. -/
theorem retransmitExpiryBeginsRoundOrStalls : Obligations.RetransmitExpiryBeginsRoundOrStalls := by
  intro s hlive htimer
  have hdue : s.mlk.sender.timer.due = true := decide_eq_true htimer
  refine ⟨fun hbelow => ?_, fun hlimit => ?_⟩ <;>
    refine congrArg Host.Outcome.next ((State.whenLive_of_live hlive _).trans ((if_pos hdue).trans ?_))
  · exact if_pos hbelow
  · refine (if_neg (Nat.not_lt.mpr hlimit)).trans ?_
    simp only [← isRequestKind_eq]
    rfl

/-! ### Frames answered without an owner -/

theorem isRequestKind_of_out {kind : Byte} (h : kind.toNat < 0x10 ∨ 0x1F < kind.toNat) : isRequestKind kind = false := by
  rw [isRequestKind_eq, decide_eq_false_iff_not]
  omega

theorem isDuplicate_of_resync {f : Frame} (h : f.kind = 0x1F) : s.isDuplicate f = false := by
  have hresync : f.kind = RequestKind.resync.code := h
  simp [State.isDuplicate, hresync]

/-- RESYNC is executed alike whatever the saved reply: both its owner and its refusal replace it. -/
theorem resync_of_saved {f : Frame} (saved : Option Frame) :
    State.finish f (resyncOwner f.body (s.withMlk { s.mlk with saved := saved }).takeFrame) =
      State.finish f (resyncOwner f.body s.takeFrame) := by
  cases f.body with
  | nil => rfl
  | cons b rest => exact (State.finish_refuse _ f .badLength).trans (State.finish_refuse s f .badLength).symm

/-- Settles O36: the frame the dispatcher takes next decides (`State.nextFrame_of_ready`); RESYNC is no duplicate. -/
theorem badKindAndDuplicateAreAnswered : Obligations.BadKindAndDuplicateAreAnswered := by
  refine ⟨fun s f hready hkind => ?_, fun s f saved hready hlow hhigh hsaved htag => ?_,
    fun s f saved hready hkind => ⟨?_, ?_⟩⟩
  · refine congrArg Host.Outcome.next ((State.whenLive_of_live hready.1 _).trans ?_)
    rw [State.nextFrame_of_ready hready]
    refine (if_neg (by simp [isRequestKind_of_out hkind])).trans ?_
    exact State.startNext_of_reply (by simp [Mlk.queueReply])
  · refine congrArg Host.Outcome.next ((State.whenLive_of_live hready.1 _).trans ?_)
    rw [State.nextFrame_of_ready hready, hsaved]
    have hduplicate : s.isDuplicate f = true := by
      have hrequest : isRequestKind f.kind = true := by
        rw [isRequestKind_eq, decide_eq_true_eq]
        omega
      have hresync : f.kind ≠ RequestKind.resync.code := fun h => by
        rw [h] at hhigh
        exact absurd hhigh (by decide)
      simp [State.isDuplicate, hrequest, hresync, hsaved, htag]
    refine (if_pos hduplicate).trans ?_
    exact State.startNext_of_reply (by simp [Mlk.queueReply])
  · exact exec_duplicate_of_live hready.1 (State.nextFrame_of_ready hready) (isDuplicate_of_resync hkind)
  · have htakes : ∀ t : State, t.ready f → exec .resync t = .next (State.finish f (resyncOwner f.body t.takeFrame)) :=
      fun t ht => congrArg Host.Outcome.next (State.execute_of_takes (kind := .resync) ⟨ht, hkind, .inl rfl⟩ resyncOwner)
    exact ⟨_, htakes s hready, (htakes (s.withMlk { s.mlk with saved := saved }) hready).trans (congrArg Host.Outcome.next (resync_of_saved saved))⟩

end Sys2Proof.Machine
end

section
/-! The notice queue: posts, losses, the carry at a removal, and the merge of RESYNC. -/

namespace Sys2Proof.Machine

variable {s : State} {n : Nq}

/-! ### Losses and the carry -/

theorem Nq.recordLoss_of_split {before after : List Entry} {count : Half} {time : Time} (now : Time)
    (hqueue : n.queue = before ++ { body := .loss count time, delivery := .unsent } :: after)
    (hbefore : ∀ e ∈ before, e.isUnsentLoss = false) : n.recordLoss now =
      { n with queue := before ++ { body := .loss (satInc count) time, delivery := .unsent } :: after } := by
  rw [Nq.recordLoss, hqueue, if_pos (any_of_split rfl), updateFirst_of_split rfl hbefore]
  rfl

theorem Nq.recordLoss_of_none (now : Time) (hnone : ∀ e ∈ n.queue, e.isUnsentLoss = false) : n.recordLoss now =
    { n with
      lossCount := satInc n.lossCount
      firstLossTime := if n.lossCount = 0 then some now else n.firstLossTime } :=
  if_neg (by simpa using hnone)

theorem Nq.carry_of_zero (h : n.lossCount = 0) : n.carry = n := if_pos h

theorem Nq.carry_of_none (hcount : n.lossCount ≠ 0) (hnone : ∀ e ∈ n.queue, e.isUnsentLoss = false) : n.carry =
    { n with
      queue := n.queue ++ [{ body := .loss n.lossCount (n.firstLossTime.getD 0), delivery := .unsent }]
      lossCount := 0
      firstLossTime := none } := by
  rw [Nq.carry, if_neg hcount]
  simp only
  rw [if_neg (by simpa using hnone)]
  rfl

theorem Nq.carry_of_split {ahead behind : List Entry} {count : Half} {time : Time} (hcount : n.lossCount ≠ 0)
    (hqueue : n.queue = ahead ++ { body := .loss count time, delivery := .unsent } :: behind)
    (hahead : ∀ e ∈ ahead, e.isUnsentLoss = false) : n.carry =
    { n with
      queue := ahead ++ { body := .loss (satAdd count n.lossCount) time, delivery := .unsent } :: behind
      lossCount := 0
      firstLossTime := none } := by
  rw [Nq.carry, if_neg hcount]
  simp only
  rw [hqueue, if_pos (any_of_split rfl), updateFirst_of_split rfl hahead]
  rfl

/-- Settles O20: the loss record by whether an UNSENT LOSS entry stands in the queue. -/
theorem lossIsCountedAndCarried : Obligations.LossIsCountedAndCarried := by
  refine ⟨fun n now => ⟨fun _ _ _ _ => Nq.recordLoss_of_split now, Nq.recordLoss_of_none now⟩,
    fun n p before after e hqueue he hbefore => ?_⟩
  rw [n.removeFirst_of_split hqueue he hbefore]
  exact ⟨Nq.carry_of_zero (n := { n with queue := before ++ after }), Nq.carry_of_none (n := { n with queue := before ++ after }),
    fun ahead behind count time hcount hleft hahead => Nq.carry_of_split hcount hleft hahead⟩

/-! ### Posts -/

/-- The oldest post is taken by the queue, and the transmitter may start a frame. -/
theorem exec_sourceEventPost_of_live {p : SourcePost} {rest : List Post} (hlive : s.live = true)
    (hposts : s.nq.posts = .source p :: rest) : exec .sourceEventPost s =
      .next (State.startNext (State.evaluate
        { s with nq := Nq.takeSource { s.nq with posts := rest } s.tbu.hubClock p })) := by
  refine congrArg Host.Outcome.next ((State.whenLive_of_live hlive _).trans ?_)
  rw [hposts]
  rfl

theorem exec_grantEventPost_of_live {e : GrantEvent} {rest : List Post} (hlive : s.live = true)
    (hposts : s.nq.posts = .grant e :: rest) : exec .grantEventPost s =
      .next (State.startNext (State.evaluate
        { s with nq := Nq.takeGrant { s.nq with posts := rest } s.tbu.hubClock e })) := by
  refine congrArg Host.Outcome.next ((State.whenLive_of_live hlive _).trans ?_)
  rw [hposts]
  rfl

/-- Settles O19: by whether an UNSENT entry of the source stands in the queue and whether there is room. -/
theorem postsCoalesceAppendOrAreLost : Obligations.PostsCoalesceAppendOrAreLost := by
  refine ⟨fun s p rest hlive hposts => ⟨_, exec_sourceEventPost_of_live hlive hposts,
      fun before after count level time hqueue hbefore => ?_, fun hnone hroom => ?_, fun hnone hfull => ?_⟩,
    fun s e rest hlive hposts => ⟨_, exec_grantEventPost_of_live hlive hposts, fun hroom => if_pos hroom,
      fun hfull => if_neg (Nat.not_lt.mpr hfull)⟩⟩
  · have hsource : Entry.isUnsentOf p.source
        { body := .sourceEvent p.source count level time, delivery := .unsent } = true :=
      Entry.isUnsentOf_iff.mpr ⟨rfl, rfl⟩
    rw [Nq.takeSource]
    simp only [hqueue]
    rw [if_pos (any_of_split hsource), updateFirst_of_split hsource hbefore]
    rfl
  · exact (if_neg (by simpa using hnone)).trans (if_pos hroom)
  · exact (if_neg (by simpa using hnone)).trans (if_neg (Nat.not_lt.mpr hfull))

/-! ### The merge of RESYNC -/

/-- An entry as RESYNC reverts it. -/
def Entry.reverted (e : Entry) : Entry := { e with delivery := .unsent }

/-- A first entry absorbs every later one that the merge counts into it, and the others are merged behind it as if it were
not there. -/
theorem foldl_mergeEntry_absorbing {w : Nat} {first : BitVec w → Entry} {later : Entry → Option Nat}
    (habsorbs : ∀ count kept e more, later e = some more → ∃ add : BitVec w, add.toNat = more ∧
      mergeEntry (first count :: kept) e.reverted = first (satAdd count add) :: kept)
    (hpasses : ∀ count kept e, later e = none →
      mergeEntry (first count :: kept) e.reverted = first count :: mergeEntry kept e.reverted)
    (rest : List Entry) (count : BitVec w) (kept : List Entry) :
    (revertAll rest).foldl mergeEntry (first count :: kept) =
      first (BitVec.ofNat w (min (2 ^ w - 1) (count.toNat + (rest.filterMap later).sum))) ::
        (revertAll (rest.filter fun e => decide (later e = none))).foldl mergeEntry kept := by
  induction rest generalizing count kept with
  | nil =>
      have hcount : BitVec.ofNat w (min (2 ^ w - 1) (count.toNat + 0)) = count := by
        have := count.isLt
        rw [Nat.add_zero, min_eq_right (by omega), BitVec.ofNat_toNat, BitVec.setWidth_eq]
      exact congrArg (fun c => first c :: kept) hcount.symm
  | cons e rest ih =>
      have hrevert : revertAll (e :: rest) = e.reverted :: revertAll rest := rfl
      rw [hrevert, List.foldl_cons]
      cases hlater : later e with
      | none =>
          rw [hpasses count kept e hlater, ih, List.filterMap_cons_none hlater,
            List.filter_cons_of_pos (by simp [hlater])]
          rfl
      | some more =>
          obtain ⟨add, hadd, hmerge⟩ := habsorbs count kept e more hlater
          rw [hmerge, ih, List.filterMap_cons_some hlater, List.filter_cons_of_neg (by simp [hlater]), List.sum_cons,
            toNat_satAdd, hadd]
          congr 3
          omega

/-- The occurrences that a later entry adds to the SOURCE_EVENT entry of a source. -/
def Entry.occurrencesOf (source : Source) (e : Entry) : Option Nat :=
  match e.body with
  | .sourceEvent x more _ _ => if x = source then some more.toNat else none
  | .start _ _ _ _ | .grantEvent _ | .loss _ _ => none

/-- The losses that a later entry adds to the LOSS entry. -/
def Entry.losses (e : Entry) : Option Nat :=
  match e.body with
  | .loss more _ => some more.toNat
  | .start _ _ _ _ | .sourceEvent _ _ _ _ | .grantEvent _ => none

theorem mergeAll_cons (e : Entry) (rest : List Entry) :
    mergeAll (e :: rest) = (revertAll rest).foldl mergeEntry [e.reverted] := by
  show (revertAll rest).foldl mergeEntry (mergeEntry [] e.reverted) = _
  rw [mergeEntry_nil]

/-- A START or GRANT_EVENT entry at the head. -/
theorem mergeAll_of_kept {e : Entry} (hsource : e.source = none) (hloss : e.isLoss = false) (rest : List Entry) :
    mergeAll (e :: rest) = e.reverted :: mergeAll rest := by
  rw [mergeAll_cons]
  exact foldl_mergeEntry_of_kept (first := e.reverted) hsource hloss [] (revertAll rest)

/-- A SOURCE_EVENT entry at the head takes the occurrences of the later ones of its source. -/
theorem mergeAll_of_sourceEvent (source : Source) (count : Byte) (level : Level) (time : Time) (delivery : Delivery)
    (rest : List Entry) : mergeAll ({ body := .sourceEvent source count level time, delivery := delivery } :: rest) =
      { body := .sourceEvent source
          (BitVec.ofNat 8 (min 255 (count.toNat + (rest.filterMap (Entry.occurrencesOf source)).sum))) level time
        delivery := .unsent } :: mergeAll (rest.filter fun e => decide (e.occurrencesOf source = none)) := by
  rw [mergeAll_cons]
  refine foldl_mergeEntry_absorbing (w := 8)
    (first := fun c => { body := .sourceEvent source c level time, delivery := .unsent })
    (fun c kept e more hlater => ?_) (fun c kept e hlater => ?_) rest count []
  · obtain ⟨body, delivery⟩ := e
    cases body with
    | sourceEvent x add l t =>
        by_cases hx : x = source
        · subst hx
          refine ⟨add, by simpa [Entry.occurrencesOf] using hlater, ?_⟩
          simp [mergeEntry, Entry.reverted, updateFirst, Entry.isUnsentOf, Entry.isUnsent, Entry.source,
            Entry.addOccurrences]
        · simp [Entry.occurrencesOf, hx] at hlater
    | start => cases hlater
    | grantEvent => cases hlater
    | loss => cases hlater
  · refine mergeEntry_cons_of_not (fun x add l t hbody => ?_) fun _ _ _ => rfl
    have hbody : e.body = .sourceEvent x add l t := hbody
    have hx : x ≠ source := fun hx => by simp [Entry.occurrencesOf, hbody, hx] at hlater
    simp [Entry.isUnsentOf, Entry.source, Ne.symm hx]

/-- A LOSS entry at the head takes the losses of the later ones. -/
theorem mergeAll_of_loss (count : Half) (time : Time) (delivery : Delivery) (rest : List Entry) :
    mergeAll ({ body := .loss count time, delivery := delivery } :: rest) =
      { body := .loss (BitVec.ofNat 16 (min 65535 (count.toNat + (rest.filterMap Entry.losses).sum))) time
        delivery := .unsent } :: mergeAll (rest.filter fun e => decide (e.losses = none)) := by
  rw [mergeAll_cons]
  refine foldl_mergeEntry_absorbing (w := 16) (first := fun c => { body := .loss c time, delivery := .unsent })
    (fun c kept e more hlater => ?_) (fun c kept e hlater => ?_) rest count []
  · obtain ⟨body, delivery⟩ := e
    cases body with
    | loss add t =>
        refine ⟨add, by simpa [Entry.losses] using hlater, ?_⟩
        simp [mergeEntry, Entry.reverted, updateFirst, Entry.isUnsentLoss, Entry.isUnsent, Entry.isLoss,
          Entry.addLosses]
    | start => cases hlater
    | sourceEvent => cases hlater
    | grantEvent => cases hlater
  · refine mergeEntry_cons_of_not (fun _ _ _ _ _ => rfl) fun add t hbody => ?_
    have hbody : e.body = .loss add t := hbody
    simp [Entry.losses, hbody] at hlater

theorem Nq.resync_of_kept (h : n.queue.length ≤ (mergeAll n.queue).length ∨ n.lossCount = 0) :
    n.resync = { n with queue := mergeAll n.queue } := by
  unfold Nq.resync
  split
  next hshorter =>
    rcases h with h | h
    · exact absurd hshorter (Nat.not_lt.mpr h)
    · exact Nq.carry_of_zero h
  next => rfl

theorem Nq.resync_of_shorter (h : (mergeAll n.queue).length < n.queue.length) :
    n.resync = Nq.carry { n with queue := mergeAll n.queue } := if_pos h

theorem Entry.isUnsentLoss_eq_false {e : Entry} (h : e.isLoss = false) : e.isUnsentLoss = false := by
  simp [Entry.isUnsentLoss, h]

/-- RESYNC at its owner. -/
theorem exec_resync_of_takes {f : Frame} (htakes : s.takes .resync f) (hbody : f.body = []) :
    exec .resync s = .next (State.answered
      (State.evaluate { s with
        nq := s.nq.resync
        mlk := { s.mlk with
          sender := { link := .running, nextNumber := 1, retryCount := 0, timer := .stopped, roundList := [] } } })
      f .ok [] none) := by
  refine congrArg Host.Outcome.next ((State.execute_of_takes htakes resyncOwner).trans ?_)
  rw [hbody, State.finish_eq]
  rfl

/-- Settles O41: one equation of the merge per kind of the head entry, and the carry when an entry has left. -/
theorem resyncRestartsNumberingAndMerges : Obligations.ResyncRestartsNumberingAndMerges := by
  refine ⟨fun s f => exec_resync_of_takes, ⟨rfl, fun delivery rest => ⟨fun _ _ _ _ => mergeAll_of_kept rfl rfl rest,
    fun _ => mergeAll_of_kept rfl rfl rest, fun source count level time => ?_, fun count time => ?_⟩⟩, fun n => ?_⟩
  · exact mergeAll_of_sourceEvent source count level time delivery rest
  · exact mergeAll_of_loss count time delivery rest
  · refine ⟨Nq.resync_of_kept, fun hshorter hcount hnone => ?_, fun ahead behind count time hshorter hcount hmerged hahead => ?_⟩
    · rw [Nq.resync_of_shorter hshorter]
      exact Nq.carry_of_none hcount fun e he => Entry.isUnsentLoss_eq_false (hnone e he)
    · rw [Nq.resync_of_shorter hshorter]
      exact Nq.carry_of_split hcount hmerged fun e he => Entry.isUnsentLoss_eq_false (hahead e he)

end Sys2Proof.Machine
end

section
/-! The Grant Arbiter, clause by clause: joins, grants and aging, the samples of a requester, and the timers of a channel. -/

namespace Sys2Proof.Machine

variable {g : Gar} {c : Channel} {q : Requester} {s : State}

/-! ### Joins and grants -/

/-- Settles O21: the place is that of `Gar.enqueue_of_arrival` or `Gar.enqueue_of_priority`. -/
theorem joinWaitQueueByPolicy : Obligations.JoinWaitQueueByPolicy := by
  refine fun g c q => ⟨Gar.enqueue_of_arrival, fun hpolicy hlawful => ?_⟩
  obtain ⟨-, hpairwise, -⟩ := hlawful
  rw [hpolicy] at hpairwise
  exact Gar.enqueue_of_priority hpolicy hpairwise

/-- The hold timer at a grant runs when the channel has a hold limit. -/
theorem holdTimer_of_grant (limit : Half) :
    (if 0 < limit.toNat then MsTimer.start limit.toNat else .stopped) =
      if limit = 0 then .stopped else .start limit.toNat := by
  by_cases h : limit = 0
  · simp [h]
  · have hpos : 0 < limit.toNat := Nat.pos_of_ne_zero fun h0 => h (BitVec.eq_of_toNat_eq h0)
    rw [if_pos hpos, if_neg h]

theorem Gar.events_grant (rest : List Requester) (now : Time) : (g.grant c q rest now).events =
    if (g.channel c).settings.reportGrants then
      [{ channel := c, requester := q, what := .granted, reason := .none, units := 0, duration := 0, time := now }]
    else [] := rfl

/-- The channels after a grant, before aging. -/
theorem Gar.channels_taken (rest : List Requester) (now : Time) : (g.taken c q rest now).channels =
    g.channels.write c { g.channel c with
      phase := .held q
      queue := rest
      holdTimer :=
        if (g.channel c).settings.holdLimit = 0 then .stopped else .start (g.channel c).settings.holdLimit.toNat
      grants := satInc (g.channel c).grants } := by
  rw [← holdTimer_of_grant]
  rfl

/-- A grant without aging. -/
theorem Gar.grant_of_not_ages (rest : List Requester) (now : Time) (h : ¬ (g.channel c).settings.ages) :
    (g.grant c q rest now).gar = g.taken c q rest now := by
  rw [Gar.gar_grant]
  refine Gar.age_of_not_ages ?_
  rw [Gar.channel_taken_same]
  exact h

theorem ChannelSettings.not_ages {x : ChannelSettings} (h : x.policy = .arrival ∨ x.ageLimit = 0) : ¬ x.ages := by
  rintro ⟨hpolicy, hlimit⟩
  rcases h with h | h
  · rw [h] at hpolicy
    cases hpolicy
  · rw [h] at hlimit
    exact absurd hlimit (by decide)

/-- A member of the rest of the queue after a grant with aging. -/
theorem Gar.requester_grant_of_ages {rest : List Requester} (now : Time) (h : (g.channel c).settings.ages) (m : Requester) :
    (g.grant c q rest now).gar.requester m =
      if m ∈ rest then { (g.taken c q rest now).requester m with
        state := ((g.taken c q rest now).requester m).state.pass (g.channel c).settings.ageLimit.toNat }
      else (g.taken c q rest now).requester m := by
  have hages : ((g.taken c q rest now).channel c).settings.ages := by
    rw [Gar.channel_taken_same]
    exact h
  rw [Gar.gar_grant, Gar.requester_age hages, Gar.channel_taken_same]
  rfl

/-- The channels after a grant with aging: the rest of the queue in its three groups. -/
theorem Gar.channels_grant_of_ages {rest : List Requester} (now : Time) (h : (g.channel c).settings.ages) :
    (g.grant c q rest now).gar.channels = g.channels.write c { g.channel c with
      phase := .held q
      queue := agedQueue (fun m => ((g.taken c q rest now).requester m).state.isPromoted)
        ((g.taken c q rest now).promotedAfter (g.channel c).settings.ageLimit.toNat) rest
      holdTimer :=
        if (g.channel c).settings.holdLimit = 0 then .stopped else .start (g.channel c).settings.holdLimit.toNat
      grants := satInc (g.channel c).grants } := by
  have hages : ((g.taken c q rest now).channel c).settings.ages := by
    rw [Gar.channel_taken_same]
    exact h
  rw [Gar.gar_grant, Gar.age_of_ages hages, Gar.channel_taken_same, Gar.channels_taken, Tbl.write_write,
    ← holdTimer_of_grant]
  rfl

/-- Settles O22: the grant test grants the head or nothing; aging passes over each member left in the queue. -/
theorem grantGoesToHeadAndAgesTheRest : Obligations.GrantGoesToHeadAndAgesTheRest := by
  refine ⟨fun g c now => ⟨Gar.grantTest_of_not now, fun q rest hopen hidle hqueue hnot => ?_⟩,
    fun g c now q rest hopen hidle hqueue hout hpolicy hlimit => ?_⟩
  · rw [Gar.grantTest_of_head now hopen hidle hqueue]
    have hgar : (g.grant c q rest now).gar = { g.taken c q rest now with channels := (g.taken c q rest now).channels } :=
      Gar.grant_of_not_ages rest now (ChannelSettings.not_ages hnot)
    rw [Gar.channels_taken] at hgar
    exact congrArg (fun gar => GarStep.mk gar (g.grant c q rest now).events) hgar
  · rw [Gar.grantTest_of_head now hopen hidle hqueue]
    have hages : (g.channel c).settings.ages := ⟨hpolicy, hlimit⟩
    have hrequester := fun m => Gar.requester_grant_of_ages (q := q) (rest := rest) now hages m
    have htaken : ∀ m ∈ rest, (g.taken c q rest now).requester m = g.requester m := fun m hm =>
      g.requester_taken_of_ne c rest now fun hmq => hout (hmq ▸ hm)
    refine ⟨?_, fun m hmq hm => ?_, fun m hm passes promoted hstate => ?_, ?_, Gar.events_grant rest now⟩
    · rw [hrequester, if_neg hout, Gar.requester_taken_same]
    · rw [hrequester, if_neg hm, g.requester_taken_of_ne c rest now hmq]
    · rw [hrequester, if_pos hm, htaken m hm, hstate]
      cases promoted <;> rfl
    · have hold : rest.filter (fun m => ((g.taken c q rest now).requester m).state.isPromoted) =
          rest.filter fun m => (g.requester m).state.isPromoted :=
        List.filter_congr fun m hm => by rw [htaken m hm]
      have hafter : ∀ m ∈ rest, (g.taken c q rest now).promotedAfter (g.channel c).settings.ageLimit.toNat m =
          ((g.grant c q rest now).gar.requester m).state.isPromoted := fun m hm => by
        rw [hrequester, if_pos hm]
        rfl
      have hnew : rest.filter (fun m => !((g.taken c q rest now).requester m).state.isPromoted &&
            (g.taken c q rest now).promotedAfter (g.channel c).settings.ageLimit.toNat m) =
          rest.filter fun m => !(g.requester m).state.isPromoted &&
            ((g.grant c q rest now).gar.requester m).state.isPromoted :=
        List.filter_congr fun m hm => by rw [htaken m hm, hafter m hm]
      have hrest : rest.filter (fun m => !(g.taken c q rest now).promotedAfter (g.channel c).settings.ageLimit.toNat m) =
          rest.filter fun m => !((g.grant c q rest now).gar.requester m).state.isPromoted :=
        List.filter_congr fun m hm => by rw [hafter m hm]
      rw [Gar.channels_grant_of_ages now hages, agedQueue, hold, hnew, hrest]

/-! ### The sample event -/

/-- What the sample event of a channel makes of one requester. -/
theorem Gar.sampleRequester_eq (req done : Pins) (now : Time) : Gar.sampleRequester c req done now q g =
    if (g.requester q).assigned = none then
      { gar := { g with
          requesters := g.requesters.write q
            { g.requester q with reqLevel := req.read q, doneLevel := some (done.read q) } }
        events := [] }
    else if (g.requester q).assigned = some c then
      (g.takeDone c q (done.read q) now).andThen fun g => g.takeReq c q (req.read q) now
    else { gar := g, events := [] } := by
  unfold Gar.sampleRequester
  cases hassigned : (g.requester q).assigned with
  | none => rfl
  | some d => by_cases hd : d = c <;> simp [hd, GarStep.quiet]

/-- Settles O23: the requesters are taken in order by `Gar.sampleRequester`, and the grant rule follows. -/
theorem sampleEventTakesRequestersInOrder : Obligations.SampleEventTakesRequestersInOrder := by
  intro c req done s hlive
  simp only [← Gar.sampleRequester_eq]
  exact exec_of_live hlive rfl

/-! ### The samples of a requester -/

theorem Gar.takeReq_of_drop (now : Time) (h : (g.requester q).reqLevel = .high) :
    g.takeReq c q .low now = (g.setRequester q { g.requester q with reqLevel := .low }).reqDrop c q now :=
  if_neg (by simp [h])

theorem Gar.takeReq_of_rise (now : Time) (h : (g.requester q).reqLevel = .low) : g.takeReq c q .high now =
    GarStep.quiet ((g.setRequester q { g.requester q with reqLevel := .high }).reqRise c q) :=
  if_neg (by simp [h])

theorem Gar.takeDone_of_edge (now : Time) (h : (g.requester q).doneLevel = some .low) : g.takeDone c q .high now =
    (g.setRequester q { g.requester q with doneLevel := some .high }).doneEdge c q now := if_pos ⟨h, rfl⟩

/-- A requester IDLE at a rise arrives; its place in the queue does not depend on its own record. -/
theorem Gar.reqRise_of_idle (h : (g.requester q).state = .idle) : g.reqRise c q = g.enqueue c q := by
  simp only [Gar.reqRise, h]

theorem Gar.reqDrop_of_waiting {passes : Nat} {promoted : Bool} (now : Time)
    (h : (g.requester q).state = .waiting passes promoted) :
    g.reqDrop c q now = GarStep.quiet (g.withdraw c q) := by
  simp only [Gar.reqDrop, h]

theorem Gar.reqDrop_of_granted {units : Byte} {start : Time} (now : Time)
    (h : (g.requester q).state = .granted units start) : g.reqDrop c q now = g.endGrant c q .released now := by
  simp only [Gar.reqDrop, h]

theorem Gar.reqDrop_of_blocked {reason : BlockReason} (now : Time) (h : (g.requester q).state = .blocked reason) :
    g.reqDrop c q now = GarStep.quiet (if (g.channel c).phase = .settling (some q) then (g.setState q .idle).endSettling c
      else g.setState q .idle) := by
  simp only [Gar.reqDrop, h]

/-- The end of a grant, written out. -/
theorem Gar.endGrant_eq {units : Byte} {start : Time} (reason : EndReason) (now : Time)
    (h : (g.requester q).state = .granted units start) : g.endGrant c q reason now = {
      gar := {
        requesters := g.requesters.write q { g.requester q with state := .idle }
        channels := g.channels.write c { g.channel c with phase := .idle, holdTimer := .stopped } }
      events :=
        if (g.channel c).settings.reportGrants then
          [{ channel := c, requester := q, what := .ended, reason := reason, units := units,
             duration := elapsed now start, time := now }]
        else [] } := by
  simp only [Gar.endGrant, h]
  rfl

theorem Gar.doneEdge_of_stray (now : Time)
    (h : (g.requester q).state = .idle ∨ (g.requester q).state.isWaiting = true ∨
      (g.requester q).state = .blocked .reset) : g.doneEdge c q now =
    GarStep.quiet (g.setChannel c { g.channel c with strayDones := satInc (g.channel c).strayDones }) := by
  unfold Gar.doneEdge
  cases hstate : (g.requester q).state with
  | detached => simp [hstate, RequesterState.isWaiting] at h
  | idle => rfl
  | waiting => rfl
  | granted => simp [hstate, RequesterState.isWaiting] at h
  | blocked reason => cases reason <;> simp [hstate, RequesterState.isWaiting] at h ⊢

theorem Gar.doneEdge_of_late {reason : BlockReason} (now : Time) (h : (g.requester q).state = .blocked reason)
    (hreason : reason ≠ .reset) : g.doneEdge c q now =
    GarStep.quiet (g.setChannel c { g.channel c with lateDones := satInc (g.channel c).lateDones }) := by
  unfold Gar.doneEdge
  cases reason with
  | reset => exact absurd rfl hreason
  | timeout => simp only [h]
  | revoked => simp only [h]

/-- A DONE edge counts a unit, and a grant that has used its quota ends on it. -/
theorem Gar.doneEdge_of_granted {units : Byte} {start : Time} (now : Time)
    (h : (g.requester q).state = .granted units start) : g.doneEdge c q now =
      if 0 < (g.channel c).settings.quota.toNat ∧ (g.channel c).settings.quota.toNat ≤ (satInc units).toNat then
        (g.setState q (.granted (satInc units) start)).endOnQuota c q now
      else GarStep.quiet (g.setState q (.granted (satInc units) start)) := by
  simp only [Gar.doneEdge, h]

theorem Gar.endOnQuota_of_high {units : Byte} {start : Time} (now : Time)
    (h : (g.requester q).state = .granted units start) (hhigh : (g.requester q).reqLevel = .high) :
    g.endOnQuota c q now = {
      gar := Gar.enqueue {
        requesters := g.requesters.write q { g.requester q with state := .idle }
        channels := g.channels.write c { g.channel c with phase := .idle, holdTimer := .stopped } } c q
      events :=
        if (g.channel c).settings.reportGrants then
          [{ channel := c, requester := q, what := .ended, reason := .quota, units := units,
             duration := elapsed now start, time := now }]
        else [] } := by
  have hlevel : ((g.endGrant c q .quota now).gar.requester q).reqLevel = .high := by
    rw [Gar.requester_endGrant_same]
    exact hhigh
  rw [Gar.endOnQuota, GarStep.andThen, if_pos hlevel, Gar.endGrant_eq .quota now h]
  simp only [GarStep.quiet, List.append_nil]

/-- The sampled requester's record, twice replaced. -/
theorem Gar.setRequester_setState (x : RequesterRecord) (state : RequesterState) :
    ((g.setRequester q x).setState q state).requesters = g.requesters.write q { x with state := state } := by
  rw [Gar.setState_setRequester]
  rfl

/-- Settles O24: the REQ sample by the state at a rise or a drop, the DONE sample by the state at an edge. -/
theorem requesterSamplesByState : Obligations.RequesterSamplesByState := by
  refine ⟨fun g c q now => ⟨fun level hlevel => ?same, fun hlow hstate => ?rise, fun passes promoted hhigh hstate => ?withdraw,
    fun units start hhigh hstate => ?release, fun reason hhigh hstate => ?unblock⟩,
    fun g c q now => ⟨fun level hlevel => ?noEdge, fun hlow => ⟨fun units start hstate hquota => ?unit,
      fun units start hstate hhigh hquota hused => ?quota, fun reason hstate hreason => ?late, fun hstate => ?stray⟩⟩⟩
  case same => exact if_pos hlevel
  case rise =>
    rw [Gar.takeReq_of_rise now hlow, Gar.reqRise_of_idle (by rw [Gar.requester_setRequester_same]; exact hstate)]
    rfl
  case withdraw =>
    rw [Gar.takeReq_of_drop now hhigh,
      Gar.reqDrop_of_waiting (passes := passes) (promoted := promoted) now
        (by rw [Gar.requester_setRequester_same]; exact hstate)]
    simp [Gar.withdraw, Gar.setState, Gar.setRequester, Gar.setChannel, Gar.requester, Gar.channel, GarStep.quiet]
  case release =>
    rw [Gar.takeReq_of_drop now hhigh,
      Gar.reqDrop_of_granted (units := units) (start := start) now
        (by rw [Gar.requester_setRequester_same]; exact hstate),
      Gar.endGrant_eq (units := units) (start := start) _ now (by rw [Gar.requester_setRequester_same]; exact hstate),
      Gar.requester_setRequester_same]
    simp only [Gar.setRequester, Tbl.write_write]
    rfl
  case unblock =>
    rw [Gar.takeReq_of_drop now hhigh,
      Gar.reqDrop_of_blocked (reason := reason) now (by rw [Gar.requester_setRequester_same]; exact hstate),
      Gar.setState_setRequester, Gar.channel_setRequester]
    split <;> rfl
  case noEdge => exact if_neg hlevel
  case unit =>
    rw [Gar.takeDone_of_edge now hlow,
      Gar.doneEdge_of_granted (units := units) (start := start) now
        (by rw [Gar.requester_setRequester_same]; exact hstate), Gar.channel_setRequester, if_neg ?_,
      Gar.setState_setRequester]
    · rfl
    · rintro ⟨hpos, hle⟩
      rcases hquota with hzero | hless
      · rw [hzero] at hpos
        exact absurd hpos (by decide)
      · exact absurd hle (Nat.not_le.mpr hless)
  case quota =>
    have hpos : 0 < (g.channel c).settings.quota.toNat :=
      Nat.pos_of_ne_zero fun h0 => hquota (BitVec.eq_of_toNat_eq h0)
    rw [Gar.takeDone_of_edge now hlow,
      Gar.doneEdge_of_granted (units := units) (start := start) now
        (by rw [Gar.requester_setRequester_same]; exact hstate), Gar.channel_setRequester, if_pos ⟨hpos, hused⟩,
      Gar.setState_setRequester,
      Gar.endOnQuota_of_high (units := satInc units) (start := start) now (by rw [Gar.requester_setRequester_same])
        (by rw [Gar.requester_setRequester_same]; exact hhigh), Gar.requester_setRequester_same]
    simp only [Gar.setRequester, Tbl.write_write]
    rfl
  case late =>
    rw [Gar.takeDone_of_edge now hlow,
      Gar.doneEdge_of_late (reason := reason) now (by rw [Gar.requester_setRequester_same]; exact hstate) hreason]
    rfl
  case stray =>
    rw [Gar.takeDone_of_edge now hlow,
      Gar.doneEdge_of_stray now (by rw [Gar.requester_setRequester_same]; exact hstate)]
    rfl

/-! ### The timers of a channel -/

/-- The holder is taken from its channel, written out. -/
theorem Gar.takeBack_eq {units : Byte} {start : Time} (recovery : Recovery) (now : Time)
    (hphase : (g.channel c).phase = .held q) (hstate : (g.requester q).state = .granted units start) :
    g.takeBack c recovery now = {
      gar := {
        requesters := g.requesters.write q { g.requester q with state := .blocked recovery.reason }
        channels := g.channels.write c { g.channel c with
          phase := .settling (some q)
          holdTimer := .stopped
          settleTimer := .start (g.channel c).settings.settleLimit.toNat
          timeouts := if recovery = .holdTimeout then satInc (g.channel c).timeouts else (g.channel c).timeouts
          revokes := if recovery = .revoke then satInc (g.channel c).revokes else (g.channel c).revokes } }
      events := [{ channel := c, requester := q, what := recovery.what, reason := .none, units := units,
                   duration := elapsed now start, time := now }] } := by
  rw [Gar.takeBack_of_held recovery now hphase, hstate]
  rfl

/-- Settles O25: the expiry takes the channel back from its holder, or ends its settling and applies the grant rule. -/
theorem holdAndSettleTimersExpire : Obligations.HoldAndSettleTimersExpire := by
  refine ⟨fun c q units start s hlive hdue hphase hstate => ?_, fun c q s hlive hdue hphase => ?_⟩ <;>
    refine congrArg Host.Outcome.next ((State.whenLive_of_live hlive _).trans ?_)
  · have hexpired : (s.gar.channel c).holdTimer.due = true := decide_eq_true hdue
    rw [if_pos hexpired, Gar.takeBack_eq .holdTimeout s.now hphase hstate]
    rfl
  · have hsettling : ((s.gar.channel c).settleTimer.due && (s.gar.channel c).phase.isSettling) = true := by
      rw [hphase, MsTimer.due, decide_eq_true hdue]
      rfl
    exact if_pos hsettling

end Sys2Proof.Machine
end

section
/-! The fields of requests (R168, R169): each field reads back its own code, and is out of range exactly above its bound; the
readers of the request bodies by their fields; and a command by what its owner answers. -/

namespace Sys2Proof.Machine

/-! ### One field -/

theorem unitNumber_of_val {n : Nat} {i : Fin n} {b : Byte} (h : i.val = b.toNat) : unitNumber n b = some i := by
  have hlt : b.toNat < n := h ▸ i.isLt
  rw [unitNumber, dif_pos hlt]
  exact congrArg some (Fin.ext h.symm)

theorem unitNumber_byteOf {n : Nat} (hn : n ≤ 256) (i : Fin n) : unitNumber n (byteOf i.val) = some i :=
  unitNumber_of_val (toNat_byteOf (i.isLt.trans_le hn)).symm

theorem unitNumber_eq_none {n : Nat} {b : Byte} : unitNumber n b = none ↔ n ≤ b.toNat := by
  simp [unitNumber]

/-- A code with two values. -/
theorem twoValues_eq_none {α : Type} {x y : α} {b : Byte} :
    (if b = 0 then some x else if b = 1 then some y else none) = none ↔ 1 < b.toNat := by
  split
  · simp_all
  · split
    · simp_all
    · simp only [true_iff]
      bv_omega

/-- A code with five values. -/
theorem fiveValues_eq_none {α : Type} {v w x y z : α} {b : Byte} :
    (if b = 0 then some v else if b = 1 then some w else if b = 2 then some x else if b = 3 then some y
      else if b = 4 then some z else none) = none ↔ 4 < b.toNat := by
  by_cases hlow : b.toNat ≤ 4
  · have hcodes : b = 0 ∨ b = 1 ∨ b = 2 ∨ b = 3 ∨ b = 4 := by bv_omega
    rcases hcodes with rfl | rfl | rfl | rfl | rfl <;> simp
  · have h0 : b ≠ 0 := by rintro rfl; exact hlow (by decide)
    have h1 : b ≠ 1 := by rintro rfl; exact hlow (by decide)
    have h2 : b ≠ 2 := by rintro rfl; exact hlow (by decide)
    have h3 : b ≠ 3 := by rintro rfl; exact hlow (by decide)
    have h4 : b ≠ 4 := by rintro rfl; exact hlow (by decide)
    simp only [h0, h1, h2, h3, h4, if_false, true_iff]
    omega

theorem flagField_eq_none {b : Byte} : flagField b = none ↔ 1 < b.toNat := twoValues_eq_none

theorem classField_eq_none {b : Byte} : classField b = none ↔ 1 < b.toNat := twoValues_eq_none

theorem modeField_eq_none {b : Byte} : modeField b = none ↔ 1 < b.toNat := twoValues_eq_none

theorem polarityField_eq_none {b : Byte} : polarityField b = none ↔ 1 < b.toNat := twoValues_eq_none

theorem driveField_eq_none {b : Byte} : driveField b = none ↔ 1 < b.toNat := twoValues_eq_none

theorem policyField_eq_none {b : Byte} : policyField b = none ↔ 1 < b.toNat := twoValues_eq_none

theorem senseField_eq_none {b : Byte} : senseField b = none ↔ 4 < b.toNat := fiveValues_eq_none

theorem rateField_eq_none {b : Byte} : rateField b = none ↔ 4 < b.toNat := fiveValues_eq_none

theorem targetField_eq_none {b : Byte} : targetField b = none ↔ 8 < b.toNat := by
  unfold targetField
  split
  · simp_all
  · simp only [Option.map_eq_none_iff, unitNumber_eq_none]
    bv_omega

theorem assignedField_eq_none {b : Byte} : assignedField b = none ↔ 3 < b.toNat ∧ b ≠ 0xFF := by
  unfold assignedField
  split
  · simp_all
  · simp only [Option.map_eq_none_iff, unitNumber_eq_none]
    bv_omega

theorem boundedField_eq_none {low high : Nat} {b : Byte} :
    boundedField low high b = none ↔ b.toNat < low ∨ high < b.toNat := by
  simp only [boundedField, ite_eq_right_iff, reduceCtorEq, imp_false]
  omega

@[simp]
theorem flagField_flagCode (x : Bool) : flagField (flagCode x) = some x := by cases x <;> rfl

@[simp]
theorem classField_code (x : SourceClass) : classField x.code = some x := by cases x <;> rfl

@[simp]
theorem senseField_code (x : Sense) : senseField x.code = some x := by cases x <;> rfl

@[simp]
theorem modeField_code (x : LineMode) : modeField x.code = some x := by cases x <;> rfl

@[simp]
theorem polarityField_code (x : Polarity) : polarityField x.code = some x := by cases x <;> rfl

@[simp]
theorem driveField_code (x : Drive) : driveField x.code = some x := by cases x <;> rfl

@[simp]
theorem policyField_code (x : Policy) : policyField x.code = some x := by cases x <;> rfl

@[simp]
theorem rateField_rateByte (x : RateCode) : rateField (rateByte x) = some x := by cases x <;> rfl

theorem targetField_of_line {l : Line} {b : Byte} (h : l.val = b.toNat) : targetField b = some (.line l) := by
  have hne : b ≠ 8 := by
    rintro rfl
    exact absurd h (by have := l.isLt; simp; omega)
  rw [targetField, if_neg hne, unitNumber_of_val h]
  rfl

@[simp]
theorem targetField_code (x : Target) : targetField x.code = some x := by
  cases x with
  | line l => exact targetField_of_line (toNat_byteOf (by omega)).symm
  | reportOnly => rfl

theorem targetField_eq_reportOnly {b : Byte} : targetField b = some .reportOnly ↔ b = 8 := by
  unfold targetField
  split <;> simp_all

theorem flagField_eq_false {b : Byte} : flagField b = some false ↔ b = 0 := by
  unfold flagField
  split <;> simp_all

theorem flagField_eq_true {b : Byte} : flagField b = some true ↔ b = 1 := by
  unfold flagField
  split <;> simp_all

theorem assignedField_byteOf (c : Channel) : assignedField (byteOf c.val) = some (some c) := by
  have hne : byteOf c.val ≠ 0xFF := fun h => by
    have := congrArg BitVec.toNat h
    rw [toNat_byteOf (by omega)] at this
    exact absurd this (by have := c.isLt; simp; omega)
  rw [assignedField, if_neg hne, unitNumber_byteOf (by decide)]
  rfl

theorem boundedField_of_mem {low high : Nat} {b : Byte} (hlow : low ≤ b.toNat) (hhigh : b.toNat ≤ high) :
    boundedField low high b = some b := if_pos ⟨hlow, hhigh⟩

/-- A two-byte field is read back from its two bytes. -/
theorem half_be16 (h : Half) : half (h.extractLsb' 8 8) (h.extractLsb' 0 8) = h := by
  unfold half
  ext i hi
  simp only [BitVec.getElem_append, BitVec.getElem_extractLsb']
  split
  · simp [hi]
  · rename_i hge
    have : 8 + (i - 8) = i := by omega
    simp [this, hi]

/-! ### The bodies of requests -/

theorem orRange_eq_range {α : Type} {fields : Option α} : orRange fields = .error .range ↔ fields = none := by
  cases fields <;> simp [orRange]

theorem oneField_of_some {α : Type} {field : Byte → Option α} {b : Byte} {a : α} (h : field b = some a) :
    oneField field [b] = .ok a := orRange_eq_ok.mpr h

theorem oneField_of_none {α : Type} {field : Byte → Option α} {b : Byte} (h : field b = none) :
    oneField field [b] = .error .range := orRange_eq_range.mpr h

/-! ### A command by what its owner answers -/

variable {s u : State} {f : Frame} {c : Instr} {kind : RequestKind} {owner : List Byte → State → Answer}
  {fields : List Byte} {result : Result}

/-- A request that its owner refuses is answered with no other change of state. -/
theorem exec_of_refuse (hexec : exec c s = .next (s.whenLive (s.execute kind owner))) (htakes : s.takes kind f)
    (howner : owner f.body s.takeFrame = s.takeFrame.refuse result) :
    exec c s = .next (s.answered f result [] none) := by
  rw [hexec, State.execute_of_takes htakes, howner, State.finish_refuse]

/-- A request that its owner accepts is answered in the state its owner makes. -/
theorem exec_of_accept (hexec : exec c s = .next (s.whenLive (s.execute kind owner))) (htakes : s.takes kind f)
    (howner : owner f.body s.takeFrame = u.takeFrame.accept fields) :
    exec c s = .next (u.answered f .ok fields none) := by
  rw [hexec, State.execute_of_takes htakes, howner, State.finish_accept]

end Sys2Proof.Machine
end

section
/-! The four queries, and the requests of the link: STATUS, LINK_SET and NOTICE_ACK. -/

namespace Sys2Proof.Machine

variable {s : State} {f : Frame}

/-! ### The queries (R35, R57, R74, R110) -/

theorem exec_sourceQuery_of_takes {source : Source} (htakes : s.takes .sourceQuery f)
    (hbody : f.body = [byteOf source.val]) :
    exec .sourceQuery s = .next (s.answered f .ok (s.sourceFields source) none) := by
  refine exec_of_accept (owner := sourceQueryOwner) rfl htakes ?_
  rw [hbody, sourceQueryOwner, oneField_of_some (unitNumber_byteOf (by decide) source)]
  rfl

theorem exec_pendingList_of_takes {l : Line} (htakes : s.takes .pendingList f) (hbody : f.body = [byteOf l.val]) :
    exec .pendingList s = .next (s.answered f .ok
      ([byteOf l.val, byteOf (s.rtu.sets.read l).length] ++ (s.rtu.sets.read l).map fun m => byteOf m.val) none) := by
  refine exec_of_accept (owner := pendingListOwner) rfl htakes ?_
  rw [hbody, pendingListOwner, oneField_of_some (unitNumber_byteOf (by decide) l)]
  rfl

theorem exec_lineQuery_of_takes {l : Line} (htakes : s.takes .lineQuery f) (hbody : f.body = [byteOf l.val]) :
    exec .lineQuery s = .next (s.answered f .ok (s.lineFields l) none) := by
  refine exec_of_accept (owner := lineQueryOwner) rfl htakes ?_
  rw [hbody, lineQueryOwner, oneField_of_some (unitNumber_byteOf (by decide) l)]
  rfl

theorem exec_channelQuery_of_takes {c : Channel} (htakes : s.takes .channelQuery f) (hbody : f.body = [byteOf c.val]) :
    exec .channelQuery s = .next (s.answered f .ok (s.channelFields c) none) := by
  refine exec_of_accept (owner := channelQueryOwner) rfl htakes ?_
  rw [hbody, channelQueryOwner, oneField_of_some (unitNumber_byteOf (by decide) c)]
  rfl

/-- Settles O42. -/
theorem queriesReportState : Obligations.QueriesReportState := by
  refine ⟨fun s f source htakes hbody => ?_, fun s f l => exec_pendingList_of_takes,
    fun s f l => exec_lineQuery_of_takes, fun s f c htakes hbody => ?_⟩
  · refine (exec_sourceQuery_of_takes htakes hbody).trans ?_
    unfold State.sourceFields Rtu.position
    cases hstatus : (s.rtu.record source).status <;> cases htarget : (s.rtu.record source).target <;>
      simp only [hstatus, htarget] <;> rfl
  · refine (exec_channelQuery_of_takes htakes hbody).trans ?_
    unfold State.channelFields Gar.holderUnits Gar.holderElapsed
    cases hphase : (s.gar.channel c).phase <;> simp only [hphase] <;> rfl

/-! ### STATUS and LINK_SET (R146, R147, R149) -/

/-- Settles O38. -/
theorem statusReportsAndClears : Obligations.StatusReportsAndClears := by
  intro s f clear htakes hbody
  refine exec_of_accept (owner := statusOwner) rfl htakes ?_
  rw [hbody, statusOwner, oneField_of_some (flagField_flagCode clear)]
  cases clear <;> rfl

theorem readLinkSet_of_lawful {x : LinkSettings} (h : x.lawful) :
    readLinkSet [rateByte x.rate, x.window, x.interval, x.retryLimit] = .ok x := by
  obtain ⟨hwindow, hwindow', hinterval, hretry, hretry'⟩ := h
  simp [readLinkSet, orRange, boundedField_of_mem hwindow hwindow',
    boundedField_of_mem hinterval (Nat.le_of_lt_succ x.interval.isLt), boundedField_of_mem hretry hretry']

/-- Settles O39. -/
theorem linkSetStoresSettings : Obligations.LinkSetStoresSettings := by
  intro s f x htakes hlawful hbody
  refine congrArg Host.Outcome.next ((State.execute_of_takes htakes linkSetOwner).trans ?_)
  rw [hbody, linkSetOwner, readLinkSet_of_lawful hlawful]
  exact State.finish_takeFrame { s with mlk := { s.mlk with settings := x } } f .ok [] _

/-! ### NOTICE_ACK (R159, R160) -/

theorem any_hasNumber_eq (n : Nq) (number : Byte) :
    n.queue.any (Entry.hasNumber number) = decide (number ∈ n.inFlight) := by
  rw [Bool.eq_iff_iff, List.any_eq_true, decide_eq_true_iff, Nq.inFlight, List.mem_filterMap]
  simp only [Entry.hasNumber_iff]

theorem readNoticeAck_of_length {numbers : List Byte} (hlow : 1 ≤ numbers.length) (hhigh : numbers.length ≤ 4) :
    readNoticeAck (byteOf numbers.length :: numbers) = .ok numbers := by
  have hcount : (byteOf numbers.length).toNat = numbers.length := toNat_byteOf (by omega)
  exact if_pos (by omega)

theorem Sender.acknowledged_eq (x : Sender) (acked inFlight : List Byte) (interval : Nat) :
    x.acknowledged acked inFlight.length interval =
      if acked = [] then x
      else { x with
        retryCount := 0
        roundList := x.roundList.filter fun n => decide (n ∉ acked)
        timer := if inFlight = [] then .stopped else .start interval } := by
  unfold Sender.acknowledged
  simp [List.isEmpty_iff, decide_not]

/-- Settles O40. -/
theorem noticeAckRemovesEntries : Obligations.NoticeAckRemovesEntries := by
  refine ⟨fun n => rfl, fun n number rest => ?_, fun s f numbers htakes hlow hhigh hbody => ?_⟩
  · simp only [Nq.acknowledgeAll, any_hasNumber_eq]
    rfl
  · refine exec_of_accept (owner := noticeAckOwner) rfl htakes ?_
    rw [hbody]
    unfold noticeAckOwner
    rw [show BitVec.ofNat 8 numbers.length :: numbers = byteOf numbers.length :: numbers from rfl,
      readNoticeAck_of_length hlow hhigh]
    simp only [Nq.inFlightCount, Sender.acknowledged_eq]
    rfl

end Sys2Proof.Machine
end

section
/-! The requests that are refused with RANGE, and LINE_SET. -/

namespace Sys2Proof.Machine

variable {s : State} {f : Frame}

/-! ### Fields out of range (R168, R169) -/

theorem readLinkSet_of_range {rate window interval retryLimit : Byte}
    (h : 4 < rate.toNat ∨ window = 0 ∨ 4 < window.toNat ∨ interval = 0 ∨ retryLimit = 0 ∨ 15 < retryLimit.toNat) :
    readLinkSet [rate, window, interval, retryLimit] = .error .range := by
  have hfields : rateField rate = none ∨ boundedField 1 4 window = none ∨ boundedField 1 255 interval = none ∨
      boundedField 1 15 retryLimit = none := by
    simp only [rateField_eq_none, boundedField_eq_none]
    bv_omega
  refine orRange_eq_range.mpr ?_
  rcases hfields with hnone | hnone | hnone | hnone <;> simp [hnone]

theorem readLineSet_of_range {line enable mode polarity drive width gap : Byte}
    (h : 7 < line.toNat ∨ 1 < enable.toNat ∨ 1 < mode.toNat ∨ 1 < polarity.toNat ∨ 1 < drive.toNat ∨ width = 0 ∨
      gap = 0 ∨ (drive = 1 ∧ polarity = 1)) :
    readLineSet [line, enable, mode, polarity, drive, width, gap] = .error .range := by
  refine orRange_eq_range.mpr ?_
  rcases h with hout | hout | hout | hout | hout | rfl | rfl | ⟨rfl, rfl⟩
  · simp [unitNumber_eq_none.mpr hout]
  · simp [flagField_eq_none.mpr hout]
  · simp [modeField_eq_none.mpr hout]
  · simp [polarityField_eq_none.mpr hout]
  · simp [driveField_eq_none.mpr hout]
  · simp [boundedField]
  · simp [boundedField]
  · simp [driveField, polarityField]

theorem readChannelSet_of_range {channel isOpen quota policy high low settle age report : Byte}
    (h : 3 < channel.toNat ∨ 1 < isOpen.toNat ∨ 1 < policy.toNat ∨ settle = 0 ∨ 15 < age.toNat ∨ 1 < report.toNat) :
    readChannelSet [channel, isOpen, quota, policy, high, low, settle, age, report] = .error .range := by
  refine orRange_eq_range.mpr ?_
  rcases h with hout | hout | hout | rfl | hout | hout
  · simp [unitNumber_eq_none.mpr hout]
  · simp [flagField_eq_none.mpr hout]
  · simp [policyField_eq_none.mpr hout]
  · simp [boundedField]
  · simp [boundedField_eq_none.mpr (.inr hout)]
  · simp [flagField_eq_none.mpr hout]

theorem readAssign_of_range {requester channel priority : Byte}
    (h : 11 < requester.toNat ∨ (3 < channel.toNat ∧ channel ≠ 0xFF) ∨ 3 < priority.toNat) :
    readAssign [requester, channel, priority] = .error .range := by
  refine orRange_eq_range.mpr ?_
  rcases h with hout | hout | hout
  · simp [unitNumber_eq_none.mpr hout]
  · simp [assignedField_eq_none.mpr hout]
  · simp [unitNumber_eq_none.mpr hout]

/-- Settles O48. -/
theorem lineAndGrantRequestRefusals : Obligations.LineAndGrantRequestRefusals := by
  refine ⟨fun s f line enable mode polarity drive width gap htakes hbody hrange => ?_,
    fun s f channel isOpen quota policy high low settle age report htakes hbody hrange => ?_,
    fun s f requester channel priority htakes hbody hrange => ?_, fun s f channel htakes hbody hrange => ?_⟩
  · refine exec_of_refuse (owner := lineSetOwner) rfl htakes ?_
    rw [hbody, lineSetOwner, readLineSet_of_range hrange]
  · refine exec_of_refuse (owner := channelSetOwner) rfl htakes ?_
    rw [hbody, channelSetOwner, readChannelSet_of_range hrange]
  · refine exec_of_refuse (owner := assignOwner) rfl htakes ?_
    rw [hbody, assignOwner, readAssign_of_range hrange]
  · refine exec_of_refuse (owner := revokeOwner) rfl htakes ?_
    rw [hbody, revokeOwner, oneField_of_none (unitNumber_eq_none.mpr hrange)]

/-- Settles O49. -/
theorem queryAndLinkRequestRefusals : Obligations.QueryAndLinkRequestRefusals := by
  refine ⟨fun s f b hbody => ⟨fun htakes hrange => ?_, fun htakes hrange => ?_, fun htakes hrange => ?_,
    fun htakes hrange => ?_, fun htakes hrange => ?_⟩,
    fun s f rate window interval retryLimit htakes hbody hrange => ?_⟩
  · refine exec_of_refuse (owner := sourceQueryOwner) rfl htakes ?_
    rw [hbody, sourceQueryOwner, oneField_of_none (unitNumber_eq_none.mpr hrange)]
  · refine exec_of_refuse (owner := pendingListOwner) rfl htakes ?_
    rw [hbody, pendingListOwner, oneField_of_none (unitNumber_eq_none.mpr hrange)]
  · refine exec_of_refuse (owner := lineQueryOwner) rfl htakes ?_
    rw [hbody, lineQueryOwner, oneField_of_none (unitNumber_eq_none.mpr hrange)]
  · refine exec_of_refuse (owner := channelQueryOwner) rfl htakes ?_
    rw [hbody, channelQueryOwner, oneField_of_none (unitNumber_eq_none.mpr hrange)]
  · refine exec_of_refuse (owner := statusOwner) rfl htakes ?_
    rw [hbody, statusOwner, oneField_of_none (flagField_eq_none.mpr hrange)]
  · refine exec_of_refuse (owner := linkSetOwner) rfl htakes ?_
    rw [hbody, linkSetOwner, readLinkSet_of_range hrange]

/-! ### LINE_SET (R70 to R73) -/

theorem readLineSet_of_valid {l : Line} {x : LineSettings} (hwidth : x.width ≠ 0) (hgap : x.gap ≠ 0)
    (hpair : ¬ (x.drive = .openDrain ∧ x.polarity = .activeHigh)) :
    readLineSet [byteOf l.val, flagCode x.enable, x.mode.code, x.polarity.code, x.drive.code, x.width, x.gap] =
      .ok (l, x) := by
  have hwidth' : boundedField 1 255 x.width = some x.width := boundedField_of_mem (by bv_omega) (by omega)
  have hgap' : boundedField 1 255 x.gap = some x.gap := boundedField_of_mem (by bv_omega) (by omega)
  simp only [readLineSet, unitNumber_byteOf (by decide : 8 ≤ 256), flagField_flagCode, modeField_code,
    polarityField_code, driveField_code, hwidth', hgap']
  simp [hpair, orRange]

theorem Rtu.nonempty_eq_decide (r : Rtu) (l : Line) : r.nonempty l = decide (r.sets.read l ≠ []) := by
  rw [Bool.eq_iff_iff, decide_eq_true_iff]
  simp [Rtu.nonempty]

theorem LineRecord.set_eq (x : LineSettings) (nonempty : Bool) : LineRecord.set x nonempty =
    { settings := x
      phase := if x.enable = true ∧ x.mode = .pulse ∧ nonempty = true then .pulse x.width else .quiet
      owed := false
      output := if x.enable = false then .off else if nonempty = false then .released else .asserted } := by
  obtain ⟨enable, mode, polarity, drive, width, gap⟩ := x
  cases nonempty <;> cases enable <;> cases mode <;> rfl

/-- Settles O18. -/
theorem lineSetReplacesSettings : Obligations.LineSetReplacesSettings := by
  intro s f l x htakes hbody hwidth hgap hpair
  refine exec_of_accept (owner := lineSetOwner) rfl htakes ?_
  rw [hbody, lineSetOwner, readLineSet_of_valid (l := l) hwidth hgap hpair]
  have hset : LineRecord.set x (s.takeFrame.rtu.nonempty l) = _ := LineRecord.set_eq x _
  simp only [Rtu.nonempty_eq_decide, decide_eq_true_eq, decide_eq_false_iff_not, not_not] at hset
  simp only [Rtu.nonempty_eq_decide, hset]
  rfl

end Sys2Proof.Machine
end

section
/-! The refusals of BIND, UNBIND, MASK and SERVICE. -/

namespace Sys2Proof.Machine

variable {s : State} {f : Frame}

/-! ### The two commands of MASK (log 5) -/

theorem State.nextMaskValue_of_takes {source value : Byte} (htakes : s.takes .mask f)
    (hbody : f.body = [source, value]) : s.nextMaskValue = flagField value := by
  unfold State.nextMaskValue
  rw [State.nextFrame_of_ready htakes.1]
  simp only [hbody]

theorem exec_maskOn_of_takes {source value : Byte} (htakes : s.takes .mask f) (hbody : f.body = [source, value])
    (hvalue : value ≠ 0) : exec .maskOn s = .next (s.whenLive (s.execute .mask maskOnOwner)) := by
  have hnot : s.nextMaskValue ≠ some false := by
    rw [State.nextMaskValue_of_takes htakes hbody]
    exact fun h => hvalue (flagField_eq_false.mp h)
  show execMaskOn s = _
  rw [execMaskOn, if_neg hnot]

theorem exec_maskOff_of_takes {source value : Byte} (htakes : s.takes .mask f) (hbody : f.body = [source, value])
    (hvalue : value ≠ 1) : exec .maskOff s = .next (s.whenLive (s.execute .mask maskOffOwner)) := by
  have hnot : s.nextMaskValue ≠ some true := by
    rw [State.nextMaskValue_of_takes htakes hbody]
    exact fun h => hvalue (flagField_eq_true.mp h)
  show execMaskOff s = _
  rw [execMaskOff, if_neg hnot]

theorem readMask_of_range {source value : Byte} (h : 29 < source.toNat ∨ 1 < value.toNat) :
    readMask [source, value] = .error .range := by
  refine orRange_eq_range.mpr ?_
  rcases h with hout | hout
  · simp [unitNumber_eq_none.mpr hout]
  · simp [flagField_eq_none.mpr hout]

theorem readMask_of_fields {source value : Byte} {x : Source} {on : Bool} (hsource : unitNumber 30 source = some x)
    (hvalue : flagField value = some on) : readMask [source, value] = .ok (x, on) := by
  simp [readMask, hsource, hvalue, orRange]

/-! ### The fields of BIND (R24) -/

theorem readBind_of_range {source target cls priority sense filter report : Byte}
    (h : 29 < source.toNat ∨ 8 < target.toNat ∨ 1 < cls.toNat ∨ 3 < priority.toNat ∨ 4 < sense.toNat ∨
      1 < report.toNat ∨ (target = 8 ∧ report = 0)) :
    readBind [source, target, cls, priority, sense, filter, report] = .error .range := by
  refine orRange_eq_range.mpr ?_
  rcases h with hout | hout | hout | hout | hout | hout | ⟨rfl, rfl⟩
  · simp [unitNumber_eq_none.mpr hout]
  · simp [targetField_eq_none.mpr hout]
  · simp [classField_eq_none.mpr hout]
  · simp [unitNumber_eq_none.mpr hout]
  · simp [senseField_eq_none.mpr hout]
  · simp [flagField_eq_none.mpr hout]
  · simp [targetField, flagField]

theorem readBind_of_fields {source target cls priority sense filter report : Byte} {x : BindFields}
    (hsource : unitNumber 30 source = some x.source) (htarget : targetField target = some x.target)
    (hcls : classField cls = some x.cls) (hpriority : unitNumber 4 priority = some x.priority)
    (hsense : senseField sense = some x.sense) (hfilter : filter = x.filter) (hreport : flagField report = some x.report)
    (hvalid : ¬ (x.target = .reportOnly ∧ x.report = false)) :
    readBind [source, target, cls, priority, sense, filter, report] = .ok x := by
  simp only [readBind, hsource, htarget, hcls, hpriority, hsense, hfilter, hreport, Option.bind_eq_bind,
    Option.bind_some, if_neg hvalid]
  rfl

/-- A BIND with every field in range is read (R24). -/
theorem exists_readBind {source target cls priority sense filter report : Byte} {x : Source}
    (h : ¬ (29 < source.toNat ∨ 8 < target.toNat ∨ 1 < cls.toNat ∨ 3 < priority.toNat ∨ 4 < sense.toNat ∨
      1 < report.toNat ∨ (target = 8 ∧ report = 0))) (hx : x.val = source.toNat) :
    ∃ b : BindFields, readBind [source, target, cls, priority, sense, filter, report] = .ok b ∧ b.source = x ∧
      targetField target = some b.target ∧ classField cls = some b.cls := by
  simp only [not_or] at h
  obtain ⟨-, htarget, hcls, hpriority, hsense, hreport, hpair⟩ := h
  obtain ⟨target', htarget⟩ := Option.ne_none_iff_exists'.mp (mt targetField_eq_none.mp htarget)
  obtain ⟨cls', hcls⟩ := Option.ne_none_iff_exists'.mp (mt classField_eq_none.mp hcls)
  obtain ⟨priority', hpriority⟩ := Option.ne_none_iff_exists'.mp (mt (unitNumber_eq_none (n := 4)).mp hpriority)
  obtain ⟨sense', hsense⟩ := Option.ne_none_iff_exists'.mp (mt senseField_eq_none.mp hsense)
  obtain ⟨report', hreport⟩ := Option.ne_none_iff_exists'.mp (mt flagField_eq_none.mp hreport)
  have hvalid : ¬ (target' = .reportOnly ∧ report' = false) := fun ⟨ht, hr⟩ =>
    hpair ⟨targetField_eq_reportOnly.mp (ht ▸ htarget), flagField_eq_false.mp (hr ▸ hreport)⟩
  exact ⟨⟨x, target', cls', priority', sense', filter, report'⟩,
    readBind_of_fields (unitNumber_of_val hx) htarget hcls hpriority hsense rfl hreport hvalid, rfl, htarget, hcls⟩

theorem classField_eq_exclusive {b : Byte} : classField b = some .exclusive ↔ b = 0 := by
  unfold classField
  split <;> simp_all

/-- The class check of BIND refuses: an EXCLUSIVE class beside any binding, any class beside an EXCLUSIVE one (R25). -/
theorem Rtu.admits_line_eq_false {r : Rtu} {l : Line} {cls : SourceClass}
    (h : (cls = .exclusive ∧ ∃ m, (r.record m).boundTo l = true) ∨
      ∃ m, (r.record m).boundTo l = true ∧ (r.record m).cls = .exclusive) : r.admits (.line l) cls = false := by
  have hbound : ∃ m, (r.record m).boundTo l = true := by
    rcases h with ⟨-, hm⟩ | ⟨m, hm, -⟩
    exacts [hm, ⟨m, hm⟩]
  obtain ⟨m, hm⟩ := hbound
  cases cls with
  | exclusive => simpa [Rtu.admits, mem_allOf] using ⟨m, hm⟩
  | shared =>
      obtain ⟨hcls, -⟩ | ⟨n, hn, hcls⟩ := h
      · cases hcls
      · simpa [Rtu.admits, mem_allOf] using ⟨n, hn, hcls⟩

theorem BindingRecord.boundTo_iff {x : BindingRecord} {l : Line} :
    x.boundTo l = true ↔ x.status ≠ .unbound ∧ x.target = .line l := by
  simp [BindingRecord.boundTo, BindingRecord.isBound]

/-! ### The refusals -/

/-- A BIND in range of a bound source is refused with BOUND (R25). -/
theorem bindOwner_of_bound {body : List Byte} {b : BindFields} (hread : readBind body = .ok b)
    (hbound : (s.rtu.record b.source).status ≠ .unbound) : bindOwner body s = s.refuse .bound := by
  simp only [bindOwner, hread, if_pos (BindingRecord.isBound_iff.mpr hbound)]

/-- A BIND in range that the class check refuses is refused with CONFLICT (R25). -/
theorem bindOwner_of_conflict {body : List Byte} {b : BindFields} (hread : readBind body = .ok b)
    (hunbound : (s.rtu.record b.source).status = .unbound) (hadmits : s.rtu.admits b.target b.cls = false) :
    bindOwner body s = s.refuse .conflict := by
  simp [bindOwner, hread, BindingRecord.isBound_eq_false.mpr hunbound, hadmits]

theorem unbindOwner_of_unbound {b : Byte} {x : Source} (hsource : unitNumber 30 b = some x)
    (hunbound : (s.rtu.record x).status = .unbound) : unbindOwner [b] s = s.refuse .notBound := by
  simp only [unbindOwner, oneField_of_some hsource, if_pos (BindingRecord.isBound_eq_false.mpr hunbound)]

theorem maskOnOwner_of_unbound {body : List Byte} {x : Source} {on : Bool} (hread : readMask body = .ok (x, on))
    (hunbound : (s.rtu.record x).status = .unbound) : maskOnOwner body s = s.refuse .notBound := by
  simp only [maskOnOwner, hread, if_pos (BindingRecord.isBound_eq_false.mpr hunbound)]

theorem maskOffOwner_of_unbound {body : List Byte} {x : Source} {on : Bool} (hread : readMask body = .ok (x, on))
    (hunbound : (s.rtu.record x).status = .unbound) : maskOffOwner body s = s.refuse .notBound := by
  simp only [maskOffOwner, hread, if_pos (BindingRecord.isBound_eq_false.mpr hunbound)]

theorem serviceOwner_of_unbound {b : Byte} {x : Source} (hsource : unitNumber 30 b = some x)
    (hunbound : (s.rtu.record x).status = .unbound) : serviceOwner [b] s = s.refuse .notBound := by
  simp only [serviceOwner, oneField_of_some hsource, hunbound]

theorem serviceOwner_of_idle {b : Byte} {x : Source} (hsource : unitNumber 30 b = some x)
    (hidle : (s.rtu.record x).status = .idle) : serviceOwner [b] s = s.refuse .notPending := by
  simp only [serviceOwner, oneField_of_some hsource, hidle]

/-- The refusals of BIND. -/
theorem exec_bind_refusals {source target cls priority sense filter report : Byte} (htakes : s.takes .bind f)
    (hbody : f.body = [source, target, cls, priority, sense, filter, report]) :
    let badRange := 29 < source.toNat ∨ 8 < target.toNat ∨ 1 < cls.toNat ∨ 3 < priority.toNat ∨ 4 < sense.toNat ∨
      1 < report.toNat ∨ (target = 8 ∧ report = 0)
    (badRange → exec .bind s = .next (s.answered f .range [] none)) ∧
    (¬ badRange → ∀ x : Source, x.val = source.toNat →
      ((s.rtu.record x).status ≠ .unbound → exec .bind s = .next (s.answered f .bound [] none)) ∧
      ((s.rtu.record x).status = .unbound → ∀ l : Line, l.val = target.toNat →
        ((cls = 0 ∧ ∃ m, (s.rtu.record m).status ≠ .unbound ∧ (s.rtu.record m).target = .line l) ∨
          (∃ m, (s.rtu.record m).status ≠ .unbound ∧ (s.rtu.record m).target = .line l ∧
            (s.rtu.record m).cls = .exclusive)) →
        exec .bind s = .next (s.answered f .conflict [] none))) := by
  refine ⟨fun hrange => ?_, fun hrange x hx => ?_⟩
  · refine exec_of_refuse (owner := bindOwner) rfl htakes ?_
    rw [hbody, bindOwner, readBind_of_range hrange]
  · obtain ⟨b, hread, rfl, htarget, hcls⟩ := exists_readBind (filter := filter) hrange hx
    rw [← hbody] at hread
    refine ⟨fun hbound => exec_of_refuse (owner := bindOwner) rfl htakes (bindOwner_of_bound hread hbound),
      fun hunbound l hl hconflict =>
        exec_of_refuse (owner := bindOwner) rfl htakes (bindOwner_of_conflict hread hunbound ?_)⟩
    have hline : b.target = .line l := Option.some_inj.mp (htarget.symm.trans (targetField_of_line hl))
    rw [hline]
    refine Rtu.admits_line_eq_false ?_
    simp only [BindingRecord.boundTo_iff]
    refine hconflict.imp (fun ⟨hzero, hm⟩ => ⟨?_, hm⟩) (fun ⟨m, hm, hl, hexcl⟩ => ⟨m, ⟨hm, hl⟩, hexcl⟩)
    exact Option.some_inj.mp (hcls.symm.trans (classField_eq_exclusive.mpr hzero))

/-- Settles O43. -/
theorem routingRequestRefusals : Obligations.RoutingRequestRefusals := by
  refine ⟨fun s f source target cls priority sense filter report => exec_bind_refusals, fun s f source value =>
    ⟨fun hbody htakes hrange => ?_, fun hbody htakes hrange => ?_, fun hbody htakes hrange => ⟨fun hvalue => ?_,
      fun hvalue => ?_⟩, fun x hx => ⟨fun hbody htakes hstatus => ?_, fun hbody htakes hstatus => ?_,
      fun hbody htakes hstatus => ?_, fun hbody htakes hstatus => ?_, fun hbody htakes hstatus => ?_⟩⟩⟩
  · refine exec_of_refuse (owner := unbindOwner) rfl htakes ?_
    rw [hbody, unbindOwner, oneField_of_none (unitNumber_eq_none.mpr hrange)]
  · refine exec_of_refuse (owner := serviceOwner) rfl htakes ?_
    rw [hbody, serviceOwner, oneField_of_none (unitNumber_eq_none.mpr hrange)]
  · refine exec_of_refuse (exec_maskOn_of_takes htakes hbody hvalue) htakes ?_
    rw [hbody, maskOnOwner, readMask_of_range hrange]
  · refine exec_of_refuse (exec_maskOff_of_takes htakes hbody hvalue) htakes ?_
    rw [hbody, maskOffOwner, readMask_of_range hrange]
  · exact exec_of_refuse (owner := unbindOwner) rfl htakes
      (hbody ▸ unbindOwner_of_unbound (s := s.takeFrame) (unitNumber_of_val hx) hstatus)
  · exact exec_of_refuse (owner := serviceOwner) rfl htakes
      (hbody ▸ serviceOwner_of_unbound (s := s.takeFrame) (unitNumber_of_val hx) hstatus)
  · exact exec_of_refuse (owner := serviceOwner) rfl htakes
      (hbody ▸ serviceOwner_of_idle (s := s.takeFrame) (unitNumber_of_val hx) hstatus)
  · exact exec_of_refuse (exec_maskOn_of_takes htakes hbody (by decide)) htakes
      (hbody ▸ maskOnOwner_of_unbound (s := s.takeFrame) (readMask_of_fields (unitNumber_of_val hx) rfl) hstatus)
  · exact exec_of_refuse (exec_maskOff_of_takes htakes hbody (by decide)) htakes
      (hbody ▸ maskOffOwner_of_unbound (s := s.takeFrame) (readMask_of_fields (unitNumber_of_val hx) rfl) hstatus)

end Sys2Proof.Machine
end

section
/-! The requests of the Grant Arbiter: CHANNEL_SET, ASSIGN and REVOKE. -/

namespace Sys2Proof.Machine

variable {s : State} {f : Frame} {g : Gar} {c : Channel} {q : Requester}

/-! ### CHANNEL_SET (R104 to R106) -/

theorem readChannelSet_of_valid {x : ChannelSettings} (hsettle : x.settleLimit ≠ 0) (hage : x.ageLimit.toNat ≤ 15) :
    readChannelSet ([byteOf c.val, flagCode x.isOpen, x.quota, x.policy.code] ++ be16 x.holdLimit ++
      [x.settleLimit, x.ageLimit, flagCode x.reportGrants]) = .ok (c, x) := by
  have hsettle' : boundedField 1 255 x.settleLimit = some x.settleLimit := boundedField_of_mem (by bv_omega) (by omega)
  have hage' : boundedField 0 15 x.ageLimit = some x.ageLimit := boundedField_of_mem (Nat.zero_le _) hage
  simp only [readChannelSet, be16, List.cons_append, List.nil_append, unitNumber_byteOf (by decide : 4 ≤ 256),
    flagField_flagCode, policyField_code, hsettle', hage', half_be16]
  rfl

theorem ChannelRecord.inUse_iff {x : ChannelRecord} : x.inUse = true ↔ x.phase ≠ .idle ∨ x.queue ≠ [] := by
  simp [ChannelRecord.inUse]

theorem ChannelSettings.lockedDiffers_eq_false {x y : ChannelSettings} : x.lockedDiffers y = false ↔
    x.quota = y.quota ∧ x.policy = y.policy ∧ x.holdLimit = y.holdLimit ∧ x.settleLimit = y.settleLimit ∧
      x.ageLimit = y.ageLimit := by
  simp [ChannelSettings.lockedDiffers, and_assoc]

/-- Settles O50. -/
theorem channelSetReplacesSettings : Obligations.ChannelSetReplacesSettings := by
  intro s f c x htakes hbody hsettle hage old inUse locked y
  have hread : readChannelSet f.body = .ok (c, x) := by
    rw [hbody]
    exact readChannelSet_of_valid hsettle hage
  refine ⟨fun huse hdiffers => ?_, fun hfree => ?_⟩
  · refine exec_of_refuse (owner := channelSetOwner) rfl htakes ?_
    have huse' : (s.takeFrame.gar.channel c).inUse = true := ChannelRecord.inUse_iff.mpr huse
    have hdiffers' : x.lockedDiffers (s.takeFrame.gar.channel c).settings = true :=
      Bool.eq_true_of_not_eq_false (mt ChannelSettings.lockedDiffers_eq_false.mp hdiffers)
    simp only [channelSetOwner, hread, huse', hdiffers', Bool.and_self, if_true]
  · refine exec_of_accept (owner := channelSetOwner) rfl htakes ?_
    have hfree' : ¬ ((s.takeFrame.gar.channel c).inUse &&
        x.lockedDiffers (s.takeFrame.gar.channel c).settings) = true := by
      rw [Bool.and_eq_true, not_and_or, Bool.not_eq_true (ChannelSettings.lockedDiffers _ _)]
      exact hfree.imp (mt ChannelRecord.inUse_iff.mp) ChannelSettings.lockedDiffers_eq_false.mpr
    simp only [channelSetOwner, hread, if_neg hfree']
    rfl

/-! ### ASSIGN (R107 to R109) -/

theorem readAssign_of_fields (q : Requester) (channel : Option Channel) (priority : Priority) :
    readAssign [byteOf q.val, (match channel with | some c => byteOf c.val | none => 0xFF), byteOf priority.val] =
      .ok { requester := q, channel := channel, priority := priority } := by
  cases channel with
  | none =>
      simp only [readAssign, unitNumber_byteOf (by decide : 12 ≤ 256), unitNumber_byteOf (by decide : 4 ≤ 256)]
      rfl
  | some c =>
      simp only [readAssign, unitNumber_byteOf (by decide : 12 ≤ 256), unitNumber_byteOf (by decide : 4 ≤ 256),
        assignedField_byteOf]
      rfl

theorem RequesterState.isEngaged_iff {x : RequesterState} :
    x.isEngaged = true ↔ x.isWaiting = true ∨ x.isGranted = true := by
  cases x <;> simp [RequesterState.isEngaged, RequesterState.isWaiting, RequesterState.isGranted]

theorem RequesterState.blockCode_pass (x : RequesterState) (limit : Nat) : (x.pass limit).blockCode = x.blockCode := by
  cases x with
  | waiting passes promoted => cases promoted <;> rfl
  | _ => rfl

/-- Aging blocks no requester. -/
theorem Gar.blockCode_age (m : Requester) : ((g.age c).requester m).state.blockCode = (g.requester m).state.blockCode := by
  by_cases hages : (g.channel c).settings.ages
  · rw [Gar.requester_age hages]
    split
    · exact RequesterState.blockCode_pass _ _
    · rfl
  · rw [Gar.age_of_not_ages hages]

/-- The grant test blocks no requester. -/
theorem Gar.blockCode_grantTest {m : Requester} (now : Time) (h : (g.requester m).state.blockCode = 0) :
    ((g.grantTest c now).gar.requester m).state.blockCode = 0 := by
  rcases g.grantTest_cases c now with ⟨-, heq⟩ | ⟨q, rest, -, -, heq⟩
  · rwa [heq]
  · rw [heq, Gar.gar_grant, Gar.blockCode_age]
    by_cases hm : m = q
    · subst hm
      rw [Gar.requester_taken_same]
      rfl
    · rwa [Gar.requester_taken_of_ne _ _ _ _ hm]

/-- The grant test of a channel where the grant rule is already applied does nothing. -/
theorem Gar.grantTest_of_ruleApplied (now : Time) (h : g.ruleApplied c) : g.grantTest c now = GarStep.quiet g := by
  refine Gar.grantTest_of_not now ?_
  by_contra hnot
  simp only [not_or, Bool.not_eq_false, ne_eq, not_not] at hnot
  exact h hnot

theorem exec_assign_of_engaged {b : AssignFields} (htakes : s.takes .assign f) (hread : readAssign f.body = .ok b)
    (hengaged : (s.gar.requester b.requester).state.isEngaged = true) :
    exec .assign s = .next (s.answered f .busy [] none) := by
  refine exec_of_refuse (owner := assignOwner) rfl htakes ?_
  rw [assignOwner, hread]
  exact if_pos hengaged

theorem exec_assign_of_free {b : AssignFields} {x : GarStep} {fields : List Byte} (htakes : s.takes .assign f)
    (hread : readAssign f.body = .ok b) (hfree : (s.gar.requester b.requester).state.isEngaged = false)
    (hx : s.gar.assign b s.tbu.hubClock = x)
    (hfields : [(x.gar.requester b.requester).state.code, (x.gar.requester b.requester).state.blockCode] = fields) :
    exec .assign s = .next (State.answered
      (State.evaluate { s with gar := x.gar, nq := { s.nq with posts := s.nq.posts ++ x.events.map Post.grant } })
      f .ok fields none) := by
  subst hx hfields
  refine exec_of_accept (owner := assignOwner) rfl htakes ?_
  rw [assignOwner, hread]
  exact if_neg (by rw [show s.takeFrame.gar = s.gar from rfl, hfree]; decide)

variable {b : AssignFields}

/-- The record of a requester that is assigned anew (R108). -/
def Gar.placed (g : Gar) (b : AssignFields) (state : RequesterState) : Gar :=
  g.setRequester b.requester
    { g.requester b.requester with assigned := b.channel, priority := b.priority, state := state }

theorem Gar.state_placed (g : Gar) (b : AssignFields) (state : RequesterState) :
    ((g.placed b state).requester b.requester).state = state := by
  rw [Gar.placed, Gar.requester_setRequester_same]

/-- What the reply of ASSIGN gives of a placed requester. -/
theorem Gar.fields_placed (g : Gar) (b : AssignFields) (state : RequesterState) :
    [((g.placed b state).requester b.requester).state.code, ((g.placed b state).requester b.requester).state.blockCode] =
      [state.code, state.blockCode] := by
  rw [Gar.state_placed]

theorem Gar.assign_of_none (now : Time) (hchannel : b.channel = none) (h : g.lawful)
    (hfree : (g.requester b.requester).isFree) : g.assign b now = GarStep.quiet (g.placed b .detached) := by
  obtain ⟨-, hsound, -⟩ := Gar.lawful_iff.mp h
  simp only [Gar.assign, Gar.placed, hchannel, Gar.releaseSettling_of_free none hsound hfree]

/-- A free requester that is assigned to a channel is IDLE there, and arrives when its REQ is high. -/
theorem Gar.assign_of_some (now : Time) (hchannel : b.channel = some c) (hfree : (g.requester b.requester).isFree) :
    g.assign b now = Gar.grantTest
      (if (g.requester b.requester).reqLevel = .high then (g.placed b .idle).enqueue c b.requester
        else g.placed b .idle) c now := by
  rcases hfree with hstate | hstate <;> simp only [Gar.assign, Gar.placed, hchannel, hstate]

theorem Gar.assign_of_low (now : Time) (hchannel : b.channel = some c) (h : g.lawful)
    (hfree : (g.requester b.requester).isFree) (hlow : (g.requester b.requester).reqLevel = .low) :
    g.assign b now = GarStep.quiet (g.placed b .idle) := by
  obtain ⟨-, -, hrules⟩ := Gar.lawful_iff.mp h
  rw [Gar.assign_of_some now hchannel hfree, hlow, if_neg (by decide)]
  exact Gar.grantTest_of_ruleApplied now (hrules c)

theorem Gar.assign_of_high (now : Time) (hchannel : b.channel = some c) (hfree : (g.requester b.requester).isFree)
    (hhigh : (g.requester b.requester).reqLevel = .high) :
    g.assign b now = ((g.placed b .idle).enqueue c b.requester).grantTest c now := by
  rw [Gar.assign_of_some now hchannel hfree, hhigh, if_pos rfl]

theorem Gar.state_enqueue (g : Gar) (c : Channel) (q : Requester) :
    ((g.enqueue c q).requester q).state = .waiting 0 false := by
  rw [Gar.enqueue, Gar.requester_setState_same]

/-- A BLOCKED requester stays BLOCKED at its new channel, or is DETACHED (R108). -/
theorem Gar.assign_of_blocked {reason : BlockReason} (now : Time) (h : g.lawful)
    (hstate : (g.requester b.requester).state = .blocked reason) : g.assign b now = GarStep.quiet
      { g.placed b (if b.channel = none then .detached else .blocked reason) with
        channels := (g.releaseSettling b.requester b.channel).channels } := by
  obtain ⟨-, -, hrules⟩ := Gar.lawful_iff.mp h
  have hrecords : (g.releaseSettling b.requester b.channel).requesters = g.requesters := by
    rcases g.releaseSettling_cases (q := b.requester) b.channel with ⟨heq, -⟩ | ⟨d, -, -, -, heq⟩
    · rw [heq]
    · rw [heq]
      rfl
  have hset (x : RequesterRecord) : (g.releaseSettling b.requester b.channel).setRequester b.requester x =
      { g.setRequester b.requester x with channels := (g.releaseSettling b.requester b.channel).channels } := by
    rw [Gar.setRequester, hrecords]
    rfl
  cases hchannel : b.channel with
  | none =>
      rw [hchannel] at hset
      simp only [Gar.assign, hchannel, hset, Gar.placed]
      rfl
  | some c =>
      rw [hchannel] at hset
      have hrule : (g.releaseSettling b.requester (some c)).ruleApplied c := by
        rcases g.releaseSettling_cases (q := b.requester) (some c) with ⟨heq, -⟩ | ⟨d, -, -, hne, heq⟩
        · rw [heq]
          exact hrules c
        · have hcd : c ≠ d := fun e => hne (congrArg some e)
          rw [heq, Gar.ruleApplied, Gar.channel_setChannel_of_ne _ hcd]
          exact hrules c
      simp only [Gar.assign, hchannel, hstate]
      refine (Gar.grantTest_of_ruleApplied (g := Gar.setRequester _ _ _) now hrule).trans ?_
      simp only [hset, Gar.placed, hchannel, reduceCtorEq, if_false]

/-- The channels after a BLOCKED requester has left its channel, written out (R108). -/
theorem Gar.channels_releaseSettling (g : Gar) (q : Requester) (next : Option Channel) :
    (g.releaseSettling q next).channels =
      match (g.requester q).assigned with
      | some old =>
          if next ≠ some old ∧ (g.channel old).phase = .settling (some q) then
            g.channels.write old { g.channel old with phase := .settling none }
          else g.channels
      | none => g.channels := by
  unfold Gar.releaseSettling
  cases (g.requester q).assigned with
  | none => rfl
  | some old => exact apply_ite Gar.channels _ _ _

theorem RequesterRecord.not_engaged_of_isFree {r : RequesterRecord} (h : r.isFree) : r.state.isEngaged = false := by
  rcases h with h | h <;> rw [h] <;> rfl

/-- Settles O51. -/
theorem assignPlacesRequester : Obligations.AssignPlacesRequester := by
  intro s f q channel priority htakes hbody r placed answer
  have hread : readAssign f.body = .ok { requester := q, channel := channel, priority := priority } := by
    rw [hbody]
    exact readAssign_of_fields q channel priority
  refine ⟨fun hengaged => ?_, fun hlawful hchannel hfree => ?_, fun c hlawful hchannel hfree hlow => ?_,
    fun c hchannel hfree hhigh => ?_, fun reason hlawful hstate => ?_⟩
  · exact exec_assign_of_engaged htakes hread (RequesterState.isEngaged_iff.mpr hengaged)
  · subst hchannel
    exact exec_assign_of_free htakes hread (RequesterRecord.not_engaged_of_isFree hfree)
      (Gar.assign_of_none _ rfl hlawful hfree) (Gar.fields_placed s.gar ⟨q, none, priority⟩ .detached)
  · subst hchannel
    exact exec_assign_of_free htakes hread (RequesterRecord.not_engaged_of_isFree hfree)
      (Gar.assign_of_low _ rfl hlawful hfree hlow) (Gar.fields_placed s.gar ⟨q, some c, priority⟩ .idle)
  · subst hchannel
    refine exec_assign_of_free htakes hread (RequesterRecord.not_engaged_of_isFree hfree)
      (Gar.assign_of_high _ rfl hfree hhigh) ?_
    have hwaiting : (((placed .idle).enqueue c q).requester q).state.blockCode = 0 := by
      rw [Gar.state_enqueue]
      rfl
    exact congrArg (fun code => [_, code]) (Gar.blockCode_grantTest s.tbu.hubClock hwaiting)
  · have hfree : (s.gar.requester q).state.isEngaged = false := by rw [hstate]; rfl
    have hassign := Gar.assign_of_blocked (b := ⟨q, channel, priority⟩) s.tbu.hubClock hlawful hstate
    rw [Gar.channels_releaseSettling] at hassign
    exact exec_assign_of_free htakes hread hfree hassign (Gar.fields_placed s.gar ⟨q, channel, priority⟩ _)

/-! ### REVOKE (R123) -/

theorem revokeOwner_of_not_held (h : ∀ q, (s.gar.channel c).phase ≠ .held q) :
    revokeOwner [byteOf c.val] s = s.refuse .noHolder := by
  rw [revokeOwner, oneField_of_some (unitNumber_byteOf (by decide) c)]
  cases hphase : (s.gar.channel c).phase with
  | held q => exact absurd hphase (h q)
  | idle => simp only [hphase]
  | settling q => simp only [hphase]

theorem revokeOwner_of_held (h : (s.gar.channel c).phase = .held q) : revokeOwner [byteOf c.val] s =
    (s.applyGar (s.gar.takeBack c .revoke s.now)).evaluate.accept [byteOf q.val, (s.gar.requester q).state.units] := by
  rw [revokeOwner, oneField_of_some (unitNumber_byteOf (by decide) c)]
  simp only [h]

/-- Settles O52. -/
theorem revokeTakesChannelBack : Obligations.RevokeTakesChannelBack := by
  intro s f c htakes hbody
  refine ⟨fun hnot => exec_of_refuse (owner := revokeOwner) rfl htakes ?_, fun q units start hphase hstate =>
    exec_of_accept (owner := revokeOwner) rfl htakes ?_⟩
  · rw [hbody]
    exact revokeOwner_of_not_held (s := s.takeFrame) hnot
  · rw [hbody]
    refine (revokeOwner_of_held (s := s.takeFrame) hphase).trans ?_
    rw [show s.takeFrame.gar = s.gar from rfl, Gar.takeBack_eq .revoke _ hphase hstate, hstate]
    rfl

end Sys2Proof.Machine
end

section
/-! The layout of frames, and the reply that every request gets. -/

namespace Sys2Proof.Machine

variable {s : State} {f : Frame} {a : Answer} {body : List Byte}

/-! ### Frames (R164, R171) -/

/-- A four-byte field is read back from its four bytes. -/
theorem append_be32 (t : Time) :
    t.extractLsb' 24 8 ++ t.extractLsb' 16 8 ++ t.extractLsb' 8 8 ++ t.extractLsb' 0 8 = t := by
  have hhigh : t.extractLsb' 24 8 ++ t.extractLsb' 16 8 = t.extractLsb' 16 16 :=
    BitVec.extractLsb'_append_extractLsb'_eq_extractLsb' (by omega)
  have hupper : t.extractLsb' 16 16 ++ t.extractLsb' 8 8 = t.extractLsb' 8 24 :=
    BitVec.extractLsb'_append_extractLsb'_eq_extractLsb' (by omega)
  have hall : t.extractLsb' 8 24 ++ t.extractLsb' 0 8 = t.extractLsb' 0 32 :=
    BitVec.extractLsb'_append_extractLsb'_eq_extractLsb' (by omega)
  rw [hhigh, hupper, hall, BitVec.extractLsb'_eq_self]

/-- Settles O29. -/
theorem frameLayoutAndNoticeBodies : Obligations.FrameLayoutAndNoticeBodies :=
  ⟨⟨fun _ => rfl, fun h => ⟨_, _, rfl, (half_be16 h).symm⟩, fun w => ⟨_, _, _, _, rfl, (append_be32 w).symm⟩⟩,
    fun _ _ => ⟨fun _ _ _ => rfl, fun _ _ _ => rfl, fun _ => rfl, fun _ => rfl⟩⟩

/-! ### Bodies of the wrong length (R141, R169) -/

theorem oneField_of_length {α : Type} {field : Byte → Option α} (h : body.length ≠ 1) :
    oneField field body = .error .badLength := by
  unfold oneField
  split
  · exact absurd rfl h
  · rfl

theorem readBind_of_length (h : body.length ≠ 7) : readBind body = .error .badLength := by
  unfold readBind
  split
  · exact absurd rfl h
  · rfl

theorem readMask_of_length (h : body.length ≠ 2) : readMask body = .error .badLength := by
  unfold readMask
  split
  · exact absurd rfl h
  · rfl

theorem readLineSet_of_length (h : body.length ≠ 7) : readLineSet body = .error .badLength := by
  unfold readLineSet
  split
  · exact absurd rfl h
  · rfl

theorem readChannelSet_of_length (h : body.length ≠ 9) : readChannelSet body = .error .badLength := by
  unfold readChannelSet
  split
  · exact absurd rfl h
  · rfl

theorem readAssign_of_length (h : body.length ≠ 3) : readAssign body = .error .badLength := by
  unfold readAssign
  split
  · exact absurd rfl h
  · rfl

theorem readLinkSet_of_length (h : body.length ≠ 4) : readLinkSet body = .error .badLength := by
  unfold readLinkSet
  split
  · exact absurd rfl h
  · rfl

/-- A count of 0 or above 4, and a length other than one plus the count, are length failures (R159). -/
theorem readNoticeAck_of_unfit (h : bodyLengthFits .noticeAck body = false) : readNoticeAck body = .error .badLength := by
  cases body with
  | nil => rfl
  | cons count numbers =>
      refine if_neg fun ⟨hlow, hhigh, hlength⟩ => ?_
      simp [bodyLengthFits, hlow, hhigh, hlength] at h

/-! ### What the owners leave of the link -/

/-- An answer with no rate switch that leaves the transmitter. -/
def Answer.keepsLink (a : Answer) (s : State) : Prop := a.state.mlk.tx = s.mlk.tx ∧ a.rateSwitch = none

theorem Answer.keepsLink_refuse (r : Result) : (s.refuse r).keepsLink s := ⟨rfl, rfl⟩

theorem Answer.keepsLink_accept {u : State} (fields : List Byte) (h : u.mlk.tx = s.mlk.tx) :
    (u.accept fields).keepsLink s := ⟨h, rfl⟩

theorem statusOwner_keepsLink (body : List Byte) (s : State) : (statusOwner body s).keepsLink s := by
  unfold statusOwner
  split
  · exact Answer.keepsLink_refuse _
  next clear _ => cases clear <;> exact Answer.keepsLink_accept _ rfl

theorem bindOwner_keepsLink (body : List Byte) (s : State) : (bindOwner body s).keepsLink s := by
  unfold bindOwner
  repeat' split
  · exact Answer.keepsLink_refuse _
  · exact Answer.keepsLink_refuse _
  · exact Answer.keepsLink_refuse _
  · exact Answer.keepsLink_accept _ rfl

theorem sourceQueryOwner_keepsLink (body : List Byte) (s : State) : (sourceQueryOwner body s).keepsLink s := by
  unfold sourceQueryOwner
  split
  · exact Answer.keepsLink_refuse _
  · exact Answer.keepsLink_accept _ rfl

theorem maskOnOwner_keepsLink (body : List Byte) (s : State) : (maskOnOwner body s).keepsLink s := by
  unfold maskOnOwner
  repeat' split
  · exact Answer.keepsLink_refuse _
  · exact Answer.keepsLink_refuse _
  · exact Answer.keepsLink_accept _ rfl

theorem maskOffOwner_keepsLink (body : List Byte) (s : State) : (maskOffOwner body s).keepsLink s := by
  unfold maskOffOwner
  repeat' split
  · exact Answer.keepsLink_refuse _
  · exact Answer.keepsLink_refuse _
  · exact Answer.keepsLink_accept _ rfl

theorem serviceOwner_keepsLink (body : List Byte) (s : State) : (serviceOwner body s).keepsLink s := by
  unfold serviceOwner
  repeat' split
  · exact Answer.keepsLink_refuse _
  · exact Answer.keepsLink_refuse _
  · exact Answer.keepsLink_refuse _
  · exact Answer.keepsLink_accept _ rfl

theorem pendingListOwner_keepsLink (body : List Byte) (s : State) : (pendingListOwner body s).keepsLink s := by
  unfold pendingListOwner
  split
  · exact Answer.keepsLink_refuse _
  · exact Answer.keepsLink_accept _ rfl

theorem lineSetOwner_keepsLink (body : List Byte) (s : State) : (lineSetOwner body s).keepsLink s := by
  unfold lineSetOwner
  split
  · exact Answer.keepsLink_refuse _
  · exact Answer.keepsLink_accept _ rfl

theorem lineQueryOwner_keepsLink (body : List Byte) (s : State) : (lineQueryOwner body s).keepsLink s := by
  unfold lineQueryOwner
  split
  · exact Answer.keepsLink_refuse _
  · exact Answer.keepsLink_accept _ rfl

theorem channelSetOwner_keepsLink (body : List Byte) (s : State) : (channelSetOwner body s).keepsLink s := by
  unfold channelSetOwner
  repeat' split
  · exact Answer.keepsLink_refuse _
  · exact Answer.keepsLink_refuse _
  · exact Answer.keepsLink_accept _ rfl

theorem assignOwner_keepsLink (body : List Byte) (s : State) : (assignOwner body s).keepsLink s := by
  unfold assignOwner
  repeat' split
  · exact Answer.keepsLink_refuse _
  · exact Answer.keepsLink_refuse _
  · exact Answer.keepsLink_accept _ rfl

theorem channelQueryOwner_keepsLink (body : List Byte) (s : State) : (channelQueryOwner body s).keepsLink s := by
  unfold channelQueryOwner
  split
  · exact Answer.keepsLink_refuse _
  · exact Answer.keepsLink_accept _ rfl

theorem revokeOwner_keepsLink (body : List Byte) (s : State) : (revokeOwner body s).keepsLink s := by
  unfold revokeOwner
  repeat' split
  · exact Answer.keepsLink_refuse _
  · exact Answer.keepsLink_accept _ rfl
  · exact Answer.keepsLink_refuse _
  · exact Answer.keepsLink_refuse _

theorem noticeAckOwner_keepsLink (body : List Byte) (s : State) : (noticeAckOwner body s).keepsLink s := by
  unfold noticeAckOwner
  split
  · exact Answer.keepsLink_refuse _
  · exact Answer.keepsLink_accept _ rfl

theorem resyncOwner_keepsLink (body : List Byte) (s : State) : (resyncOwner body s).keepsLink s := by
  unfold resyncOwner
  split
  · exact Answer.keepsLink_accept _ rfl
  · exact Answer.keepsLink_refuse _

theorem tx_linkSetOwner (body : List Byte) (s : State) : (linkSetOwner body s).state.mlk.tx = s.mlk.tx := by
  unfold linkSetOwner
  split <;> rfl

theorem rateSwitch_unbindOwner (body : List Byte) (s : State) : (unbindOwner body s).rateSwitch = none := by
  unfold unbindOwner
  split
  · rfl
  · split <;> rfl

/-! ### Every command at its owner -/

/-- What the owner of a command's requests answers, beside `executesAt`: only UNBIND can start a frame, only LINK_SET gives
a rate switch, and a body of the wrong length is refused. -/
structure OwnerOf (c : Instr) (kind : RequestKind) (owner : List Byte → State → Answer) : Prop where
  executes : executesAt c kind owner
  tx : c ≠ .unbind → ∀ body s, (owner body s).state.mlk.tx = s.mlk.tx
  rate : c ≠ .linkSet → ∀ body s, (owner body s).rateSwitch = none
  length : ∀ body s, bodyLengthFits kind body = false → owner body s = s.refuse .badLength

theorem OwnerOf.of_keepsLink {c : Instr} {kind : RequestKind} {owner : List Byte → State → Answer}
    (executes : executesAt c kind owner) (hkeeps : ∀ body s, (owner body s).keepsLink s)
    (length : ∀ body s, bodyLengthFits kind body = false → owner body s = s.refuse .badLength) : OwnerOf c kind owner :=
  ⟨executes, fun _ body s => (hkeeps body s).1, fun _ body s => (hkeeps body s).2, length⟩

theorem ownerOf_status : OwnerOf .status .status statusOwner :=
  .of_keepsLink (executesAt_of_exec statusOwner_effect fun _ => rfl) statusOwner_keepsLink fun body s h => by
    rw [statusOwner, oneField_of_length (of_decide_eq_false h)]

theorem ownerOf_bind : OwnerOf .bind .bind bindOwner :=
  .of_keepsLink (executesAt_of_exec bindOwner_effect fun _ => rfl) bindOwner_keepsLink fun body s h => by
    rw [bindOwner, readBind_of_length (of_decide_eq_false h)]

theorem ownerOf_unbind : OwnerOf .unbind .unbind unbindOwner where
  executes := executesAt_of_exec unbindOwner_effect fun _ => rfl
  tx h := absurd rfl h
  rate _ := rateSwitch_unbindOwner
  length body s h := by rw [unbindOwner, oneField_of_length (of_decide_eq_false h)]

theorem ownerOf_sourceQuery : OwnerOf .sourceQuery .sourceQuery sourceQueryOwner :=
  .of_keepsLink (executesAt_of_exec sourceQueryOwner_effect fun _ => rfl) sourceQueryOwner_keepsLink fun body s h => by
    rw [sourceQueryOwner, oneField_of_length (of_decide_eq_false h)]

theorem ownerOf_maskOn : OwnerOf .maskOn .mask maskOnOwner :=
  .of_keepsLink executesAt_maskOn maskOnOwner_keepsLink fun body s h => by
    rw [maskOnOwner, readMask_of_length (of_decide_eq_false h)]

theorem ownerOf_maskOff : OwnerOf .maskOff .mask maskOffOwner :=
  .of_keepsLink executesAt_maskOff maskOffOwner_keepsLink fun body s h => by
    rw [maskOffOwner, readMask_of_length (of_decide_eq_false h)]

theorem ownerOf_service : OwnerOf .service .service serviceOwner :=
  .of_keepsLink (executesAt_of_exec serviceOwner_effect fun _ => rfl) serviceOwner_keepsLink fun body s h => by
    rw [serviceOwner, oneField_of_length (of_decide_eq_false h)]

theorem ownerOf_pendingList : OwnerOf .pendingList .pendingList pendingListOwner :=
  .of_keepsLink (executesAt_of_exec pendingListOwner_effect fun _ => rfl) pendingListOwner_keepsLink fun body s h => by
    rw [pendingListOwner, oneField_of_length (of_decide_eq_false h)]

theorem ownerOf_lineSet : OwnerOf .lineSet .lineSet lineSetOwner :=
  .of_keepsLink (executesAt_of_exec lineSetOwner_effect fun _ => rfl) lineSetOwner_keepsLink fun body s h => by
    rw [lineSetOwner, readLineSet_of_length (of_decide_eq_false h)]

theorem ownerOf_lineQuery : OwnerOf .lineQuery .lineQuery lineQueryOwner :=
  .of_keepsLink (executesAt_of_exec lineQueryOwner_effect fun _ => rfl) lineQueryOwner_keepsLink fun body s h => by
    rw [lineQueryOwner, oneField_of_length (of_decide_eq_false h)]

theorem ownerOf_channelSet : OwnerOf .channelSet .channelSet channelSetOwner :=
  .of_keepsLink (executesAt_of_exec channelSetOwner_effect fun _ => rfl) channelSetOwner_keepsLink fun body s h => by
    rw [channelSetOwner, readChannelSet_of_length (of_decide_eq_false h)]

theorem ownerOf_assign : OwnerOf .assign .assign assignOwner :=
  .of_keepsLink (executesAt_of_exec assignOwner_effect fun _ => rfl) assignOwner_keepsLink fun body s h => by
    rw [assignOwner, readAssign_of_length (of_decide_eq_false h)]

theorem ownerOf_channelQuery : OwnerOf .channelQuery .channelQuery channelQueryOwner :=
  .of_keepsLink (executesAt_of_exec channelQueryOwner_effect fun _ => rfl) channelQueryOwner_keepsLink fun body s h => by
    rw [channelQueryOwner, oneField_of_length (of_decide_eq_false h)]

theorem ownerOf_revoke : OwnerOf .revoke .revoke revokeOwner :=
  .of_keepsLink (executesAt_of_exec revokeOwner_effect fun _ => rfl) revokeOwner_keepsLink fun body s h => by
    rw [revokeOwner, oneField_of_length (of_decide_eq_false h)]

theorem ownerOf_noticeAck : OwnerOf .noticeAck .noticeAck noticeAckOwner :=
  .of_keepsLink (executesAt_of_exec noticeAckOwner_effect fun _ => rfl) noticeAckOwner_keepsLink fun body s h => by
    rw [noticeAckOwner, readNoticeAck_of_unfit h]

theorem ownerOf_linkSet : OwnerOf .linkSet .linkSet linkSetOwner where
  executes := executesAt_of_exec linkSetOwner_effect fun _ => rfl
  tx _ := tx_linkSetOwner
  rate h := absurd rfl h
  length body s h := by rw [linkSetOwner, readLinkSet_of_length (of_decide_eq_false h)]

theorem ownerOf_resync : OwnerOf .resync .resync resyncOwner :=
  .of_keepsLink (executesAt_of_exec resyncOwner_effect fun _ => rfl) resyncOwner_keepsLink fun body s h => by
    cases body with
    | nil => cases h
    | cons b rest => rfl

theorem exists_ownerOf {c : Instr} {kind : RequestKind} (h : requestKind c = some kind) :
    ∃ owner, OwnerOf c kind owner := by
  cases c with
  | status => cases h; exact ⟨_, ownerOf_status⟩
  | bind => cases h; exact ⟨_, ownerOf_bind⟩
  | unbind => cases h; exact ⟨_, ownerOf_unbind⟩
  | sourceQuery => cases h; exact ⟨_, ownerOf_sourceQuery⟩
  | maskOn => cases h; exact ⟨_, ownerOf_maskOn⟩
  | maskOff => cases h; exact ⟨_, ownerOf_maskOff⟩
  | service => cases h; exact ⟨_, ownerOf_service⟩
  | pendingList => cases h; exact ⟨_, ownerOf_pendingList⟩
  | lineSet => cases h; exact ⟨_, ownerOf_lineSet⟩
  | lineQuery => cases h; exact ⟨_, ownerOf_lineQuery⟩
  | channelSet => cases h; exact ⟨_, ownerOf_channelSet⟩
  | assign => cases h; exact ⟨_, ownerOf_assign⟩
  | channelQuery => cases h; exact ⟨_, ownerOf_channelQuery⟩
  | revoke => cases h; exact ⟨_, ownerOf_revoke⟩
  | noticeAck => cases h; exact ⟨_, ownerOf_noticeAck⟩
  | linkSet => cases h; exact ⟨_, ownerOf_linkSet⟩
  | resync => cases h; exact ⟨_, ownerOf_resync⟩
  | _ => cases h

/-! ### The reply -/

/-- A result other than OK comes with no other change. -/
theorem OwnerEffect.eq_refuse (h : OwnerEffect s a) (hresult : a.result ≠ .ok) : a = s.refuse a.result := by
  cases h with
  | refused => rfl
  | _ => exact absurd rfl hresult

/-- The state with another receive buffer. -/
def State.withBuffer (s : State) (buffer : List Buffered) : State := s.withMlk { s.mlk with buffer := buffer }

/-- An answer of an owner, as the reply to the frame at the head of the receive buffer. -/
theorem OwnerEffect.finish_eq (h : OwnerEffect s.takeFrame a) : State.finish f a =
    (a.state.withBuffer s.mlk.buffer).answered f a.result a.fields a.rateSwitch := by
  obtain ⟨-, -, hbuffer, -⟩ := h.keeps_frame
  have hstate : (a.state.withBuffer s.mlk.buffer).takeFrame = a.state := by
    show a.state.withBuffer s.mlk.buffer.tail = a.state
    rw [← show a.state.mlk.buffer = s.mlk.buffer.tail from hbuffer]
    rfl
  rw [← State.finish_takeFrame, hstate]

/-- A MASK body of the wrong length has no mask value (log 5). -/
theorem State.nextMaskValue_of_unfit (htakes : s.takes .mask f) (h : bodyLengthFits .mask f.body = false) :
    s.nextMaskValue = none := by
  unfold State.nextMaskValue
  rw [State.nextFrame_of_ready htakes.1]
  simp only
  split
  next heq =>
    rw [heq] at h
    cases h
  · rfl

/-- A taken request is executed, but for a MASK of the other mask value. -/
theorem executesAt.exec_eq {c : Instr} {kind : RequestKind} {owner : List Byte → State → Answer}
    (h : executesAt c kind owner) (htakes : s.takes kind f) (hon : c = .maskOn → s.nextMaskValue ≠ some false)
    (hoff : c = .maskOff → s.nextMaskValue ≠ some true) :
    exec c s = .next (State.finish f (owner f.body s.takeFrame)) := by
  obtain ⟨-, hexec⟩ := h
  rcases hexec s with hexec | ⟨-, ⟨hc, hvalue⟩ | ⟨hc, hvalue⟩⟩
  · rw [hexec, State.execute_of_takes htakes]
  · exact absurd hvalue (hon hc)
  · exact absurd hvalue (hoff hc)

/-- Settles O37. -/
theorem everyRequestIsAnswered : Obligations.EveryRequestIsAnswered := by
  refine ⟨fun c kind s f hkind htakes hon hoff => ?_, fun c kind s f hkind htakes hunfit => ?_⟩
  · obtain ⟨owner, howner⟩ := exists_ownerOf hkind
    have heffect := howner.executes.1 f.body s.takeFrame
    obtain ⟨-, hpending, -, hreplies⟩ := heffect.keeps_frame
    refine ⟨_, _, _, _, (howner.executes.exec_eq htakes hon hoff).trans (congrArg _ heffect.finish_eq), rfl, hreplies,
      hpending, ?_, fun hresult => ?_, fun hrate => ?_⟩
    · by_cases hc : c = .unbind
      · exact .inr hc
      · exact .inl (howner.tx hc f.body s.takeFrame)
    · rw [heffect.eq_refuse hresult]
      exact ⟨rfl, rfl⟩
    · by_contra hc
      exact hrate (howner.rate hc f.body s.takeFrame)
  · obtain ⟨owner, howner⟩ := exists_ownerOf hkind
    have hmask (hc : requestKind c = some .mask) : s.nextMaskValue = none := by
      obtain rfl := Option.some_inj.mp (hkind.symm.trans hc)
      exact State.nextMaskValue_of_unfit htakes hunfit
    rw [howner.executes.exec_eq htakes (fun hc => by rw [hmask (hc ▸ rfl)]; nofun)
      (fun hc => by rw [hmask (hc ▸ rfl)]; nofun), howner.length f.body s.takeFrame hunfit, State.finish_refuse]

end Sys2Proof.Machine
end

section
/-! BIND: the record it stores, and the event of a source that is active at the bind (R24 to R28). -/

namespace Sys2Proof.Machine

variable {s : State} {f : Frame} {r : Rtu} {source : Source} {b : BindFields}

/-! ### At the RTU -/

/-- The waiting reports of an unbound source have no effect (log 8). -/
theorem Rtu.takeReportsOf_of_unbound (h : (r.record source).status = .unbound) : r.takeReportsOf source =
    RtuStep.quiet { r with reports := r.reports.filter fun rep => decide (rep.source ≠ source) } := by
  have hquiet (reports : List LevelReport) (r' : Rtu) (hof : ∀ rep ∈ reports, rep.source = source)
      (hr : (r'.record source).status = .unbound) :
      reports.foldl (fun x rep => x.andThen fun r => r.takeReport rep) (RtuStep.quiet r') = RtuStep.quiet r' := by
    induction reports with
    | nil => rfl
    | cons rep rest ih =>
        obtain ⟨hrep, hrest⟩ := List.forall_mem_cons.mp hof
        rw [List.foldl_cons, RtuStep.quiet_andThen, Rtu.takeReport_of_not (.inl (hrep ▸ hr))]
        exact ih hrest
  unfold Rtu.takeReportsOf
  have hof : ∀ rep ∈ r.reports.filter fun rep => decide (rep.source = source), rep.source = source := fun rep hrep => by
    simpa using (List.mem_filter.mp hrep).2
  refine (hquiet _ { r with reports := r.reports.filter fun rep => !decide (rep.source = source) } hof h).trans ?_
  simp only [decide_not]

/-- The table after a BIND, before the bind-time event. -/
def Rtu.bound (r : Rtu) (b : BindFields) : Rtu :=
  Rtu.setRecord { r with reports := r.reports.filter fun rep => decide (rep.source ≠ b.source) } b.source b.record

theorem Rtu.record_bound (r : Rtu) (b : BindFields) : (r.bound b).record b.source = b.record :=
  Rtu.record_setRecord_same ..

theorem Rtu.bind_of_unbound (level : Accepted) (now : Time) (h : (r.record b.source).status = .unbound) :
    r.bind b level now = (r.bound b).bindTimeEvent b.source level now := by
  rw [Rtu.bind, Rtu.takeReportsOf_of_unbound h, RtuStep.quiet_andThen]
  rfl

theorem Rtu.bindTimeEvent_of_inactive {level : Accepted} (now : Time)
    (h : ∀ k, level = .known k → (r.record source).sense.activeLevel ≠ some k) :
    r.bindTimeEvent source level now = RtuStep.quiet r := by
  cases level with
  | unknown => rfl
  | known k => exact if_neg (by simpa [Sense.active] using h k rfl)

theorem Rtu.bindTimeEvent_of_active {k : Level} (now : Time) (h : (r.record source).sense.activeLevel = some k) :
    r.bindTimeEvent source (.known k) now = r.event { source := source, level := k, time := now } :=
  if_pos (by simpa [Sense.active] using h)

theorem Rtu.bind_of_inactive {level : Accepted} (now : Time) (hunbound : (r.record b.source).status = .unbound)
    (h : ∀ k, level = .known k → b.record.sense.activeLevel ≠ some k) :
    r.bind b level now = RtuStep.quiet (r.bound b) := by
  rw [Rtu.bind_of_unbound level now hunbound, Rtu.bindTimeEvent_of_inactive now (by rwa [Rtu.record_bound])]

theorem Rtu.bind_of_active {k : Level} (now : Time) (hunbound : (r.record b.source).status = .unbound)
    (h : b.record.sense.activeLevel = some k) : r.bind b (.known k) now =
      (r.bound b).event { source := b.source, level := k, time := now } := by
  rw [Rtu.bind_of_unbound _ now hunbound, Rtu.bindTimeEvent_of_active now (by rwa [Rtu.record_bound])]

theorem Rtu.event_bound_of_reportOnly {p : SourcePost} (hp : p.source = b.source) (h : b.target = .reportOnly) :
    (r.bound b).event p = { rtu := r.bound b, triggers := [], posts := if b.report then [p] else [] } := by
  have hrecord : (r.bound b).record p.source = b.record := hp ▸ Rtu.record_bound r b
  rw [Rtu.event_of_reportOnly (by rw [hrecord]; nofun) (by rw [hrecord]; rfl) (by rw [hrecord]; exact h), hrecord]
  rfl

theorem Rtu.event_bound_of_line {p : SourcePost} {l : Line} (hp : p.source = b.source) (h : b.target = .line l) :
    (r.bound b).event p = { rtu := (r.bound b).join b.source l, triggers := [{ kind := .join, line := l }],
                            posts := if b.report then [p] else [] } := by
  have hrecord : (r.bound b).record p.source = b.record := hp ▸ Rtu.record_bound r b
  rw [Rtu.event_of_idle (by rw [hrecord]; rfl) (by rw [hrecord]; rfl) (by rw [hrecord]; exact h), hrecord, hp]
  rfl

theorem Rtu.lawful_bound (h : r.lawful) (hunbound : (r.record b.source).status = .unbound)
    (hreport : b.target = .reportOnly → b.report = true) : (r.bound b).lawful :=
  Rtu.lawful_setRecord (r := { r with reports := _ }) h (BindFields.lawful_record hreport)
    (.inr ⟨by simp [hunbound], nofun⟩)

/-- The class check admits a binding beside none, and a SHARED one beside SHARED ones (R25). -/
theorem Rtu.admits_of_shared {target : Target} {cls : SourceClass}
    (h : ∀ l, target = .line l → ∀ m, (r.record m).boundTo l = true → cls = .shared ∧ (r.record m).cls = .shared) :
    r.admits target cls = true := by
  cases target with
  | reportOnly => rfl
  | line l =>
      cases cls with
      | exclusive =>
          simp only [Rtu.admits, Bool.not_eq_eq_eq_not, Bool.not_true, List.any_eq_false]
          exact fun m _ hm => nomatch (h l rfl m hm).1
      | shared =>
          simp only [Rtu.admits, Bool.not_eq_eq_eq_not, Bool.not_true, List.any_eq_false, Bool.and_eq_true, not_and]
          exact fun m _ hm => by rw [(h l rfl m hm).2]; decide

/-! ### The command -/

theorem exec_bind_of_takes {x : RtuStep} (htakes : s.takes .bind f) (hread : readBind f.body = .ok b)
    (hunbound : (s.rtu.record b.source).status = .unbound) (hadmits : s.rtu.admits b.target b.cls = true)
    (hx : s.rtu.bind b (s.scu.level b.source) s.tbu.hubClock = x) :
    exec .bind s = .next (State.answered
      ((s.withScu (s.scu.changeFilter b.source (s.rtu.record b.source).filter b.record.filter)).applyRtu x)
      f .ok [(x.rtu.record b.source).status.code] none) := by
  subst hx
  refine exec_of_accept (owner := bindOwner) rfl htakes ?_
  have hfree : ¬ (s.takeFrame.rtu.record b.source).isBound = true := by
    rw [BindingRecord.isBound_iff, not_not]
    exact hunbound
  have hadmits' : ¬ s.takeFrame.rtu.admits b.target b.cls = false := by
    rw [Bool.not_eq_false]
    exact hadmits
  simp only [bindOwner, hread, if_neg hfree, if_neg hadmits']
  rfl

/-- Settles O44: the bind-time event by activity and target. -/
theorem bindStoresRecordWithLevelEvent : Obligations.BindStoresRecordWithLevelEvent := by
  intro s f source target cls priority sense filter report htakes hbody hvalid hlawful hunbound hclass x scu reports posts
  let b : BindFields := ⟨source, target, cls, priority, sense, filter, report⟩
  have hread : readBind f.body = .ok b := by
    rw [hbody]
    exact readBind_of_fields (x := b) (unitNumber_byteOf (by decide) source) (targetField_code target)
      (classField_code cls) (unitNumber_byteOf (by decide) priority) (senseField_code sense) rfl
      (flagField_flagCode report) hvalid
  have hreport : b.target = .reportOnly → b.report = true := fun htarget =>
    Bool.eq_true_of_not_eq_false fun hfalse => hvalid ⟨htarget, hfalse⟩
  have hfilter : (s.rtu.record source).filter = 0 := by
    obtain ⟨hrecords, -⟩ := hlawful
    rw [(hrecords source).1 hunbound]
    rfl
  have hbind {y : RtuStep} (hy : s.rtu.bind b (s.scu.level source) s.tbu.hubClock = y) :
      exec .bind s = .next (State.answered ((s.withScu scu).applyRtu y) f .ok
        [(y.rtu.record source).status.code] none) := by
    rw [exec_bind_of_takes htakes hread hunbound (Rtu.admits_of_shared hclass) hy, hfilter]
    rfl
  have hrecord : (s.rtu.bound b).record source = x := Rtu.record_bound s.rtu b
  refine ⟨fun hinactive => ?_, fun level hlevel hactive htarget => ?_, fun level l hlevel hactive htarget => ?_⟩
  · rw [hbind (Rtu.bind_of_inactive s.tbu.hubClock hunbound hinactive), State.applyRtu_quiet_of_same (by rfl),
      RtuStep.rtu_quiet, hrecord]
    rfl
  · have hy := Rtu.bind_of_active (b := b) s.tbu.hubClock hunbound hactive
    rw [Rtu.event_bound_of_reportOnly (b := b) rfl htarget, ← hlevel] at hy
    rw [hbind hy, State.applyRtu_of_same (by rfl)]
    simp only [hrecord, map_source_posts, List.append_nil]
    rfl
  · obtain ⟨-, -, -, hordered⟩ := Rtu.lawful_bound (b := b) hlawful hunbound hreport
    obtain ⟨ahead, behind, hbetween, hjoin⟩ := Rtu.join_eq (s.rtu.bound b) source l (hordered l)
    refine ⟨ahead, behind, hbetween, ?_⟩
    have hy := Rtu.bind_of_active (b := b) s.tbu.hubClock hunbound hactive
    rw [Rtu.event_bound_of_line (b := b) rfl htarget, hjoin, Rtu.record_bound, ← hlevel] at hy
    rw [hbind hy, State.applyRtu_of_joined (s := s.withScu scu) (source := source) (ahead := ahead) (behind := behind)
      (l := l) rfl]
    simp only [map_source_posts]
    have hrecords : (s.rtu.bound b).records.write source { b.record with status := .pending } =
        s.rtu.records.write source { x with status := .pending } := Tbl.write_write ..
    have hstatus : (Rtu.record { s.rtu.bound b with
        sets := (s.rtu.bound b).sets.write l (ahead ++ source :: behind)
        records := (s.rtu.bound b).records.write source { b.record with status := .pending } } source).status =
          .pending := by
      rw [Rtu.record, Tbl.read_write_same]
    rw [hstatus, hrecords]
    rfl

end Sys2Proof.Machine
end

section
/-! MASK and SERVICE, and the waiting reports that they take first (R47 to R56; log 8). -/

namespace Sys2Proof.Machine

variable {s t : State} {f : Frame} {r r' : Rtu} {source : Source} {l : Line}

/-! ### Waiting reports of a masked or PENDING source -/

/-- The source and the sets are as they were, but for the two marks an event leaves at a masked or PENDING source. -/
def Rtu.marks (source : Source) (r r' : Rtu) : Prop := r'.sets = r.sets ∧
  ∃ again held, r'.record source = { r.record source with again := again, held := held }

/-- An event of the source joins nothing: it is masked, or PENDING already (R42, R43). -/
def BindingRecord.joinsNothing (x : BindingRecord) : Prop := x.mask = true ∨ x.status = .pending

theorem Rtu.marks_refl (source : Source) (r : Rtu) : Rtu.marks source r r := ⟨rfl, _, _, rfl⟩

theorem Rtu.joinsNothing_of_marks (h : Rtu.marks source r r') (hr : (r.record source).joinsNothing) :
    (r'.record source).joinsNothing := by
  obtain ⟨-, again, held, heq⟩ := h
  rw [heq]
  exact hr

theorem Rtu.marks_event {p : SourcePost} (hp : p.source = source) (hr : (r.record source).joinsNothing)
    (h : Rtu.marks source r r') : Rtu.marks source r (r'.event p).rtu := by
  have hr' := Rtu.joinsNothing_of_marks h hr
  obtain ⟨hsets, again, held, heq⟩ := h
  subst hp
  rcases r'.event_cases p with he | ⟨-, -, he⟩ | ⟨l, -, -, -, he⟩ | ⟨l, hidle, hmask, -, he⟩ <;> rw [he]
  · exact ⟨hsets, again, held, heq⟩
  · exact ⟨hsets, again, true, by rw [Rtu.record_setRecord_same, heq]⟩
  · exact ⟨hsets, true, held, by rw [Rtu.record_setRecord_same, heq]⟩
  · rcases hr' with hmask' | hpending
    · rw [hmask'] at hmask
      cases hmask
    · rw [hpending] at hidle
      cases hidle

theorem Rtu.marks_takeReportsOf (hr : (r.record source).joinsNothing) :
    Rtu.marks source r (r.takeReportsOf source).rtu :=
  Rtu.takeReportsOf_keeps (P := Rtu.marks source r) (fun _ _ _ h => h) (fun _ _ hp h => Rtu.marks_event hp hr h)
    (Rtu.marks_refl source r)

theorem Rtu.marks_takeOldestReport (hr : (r.record source).joinsNothing) :
    Rtu.marks source r (r.takeOldestReport source).rtu := by
  unfold Rtu.takeOldestReport
  split
  next rep hfind =>
    have hrep : rep.source = source := by simpa using List.find?_some hfind
    rcases Rtu.takeReport_cases { r with reports := r.reports.eraseP fun x => decide (x.source = source) } rep with
      hx | hx <;> rw [hx]
    · exact ⟨rfl, _, _, rfl⟩
    · exact Rtu.marks_event (p := { source := rep.source, level := rep.new, time := rep.time }) hrep hr ⟨rfl, _, _, rfl⟩
  · exact Rtu.marks_refl source r

theorem State.applyRtu_quiet_rtu (s : State) : s.applyRtu (RtuStep.quiet s.rtu) = s :=
  State.applyRtu_quiet_of_same rfl

/-- Commands LEVEL_CHANGE_REPORT of a source until none of its reports waits take those reports in order (log 8). -/
theorem State.eq_of_takesReports {n : Nat} (hlive : s.live = true) (hr : (s.rtu.record source).joinsNothing)
    (htakes : s.takesReports source n t) (hnone : t.rtu.noReportOf source) :
    t = s.applyRtu (s.rtu.takeReportsOf source) := by
  induction n generalizing s with
  | zero =>
      obtain rfl : t = s := htakes
      rw [Rtu.takeReportsOf_of_none hnone, State.applyRtu_quiet_rtu]
  | succ n ih =>
      obtain ⟨u, hu, hrest⟩ := htakes
      rw [exec_levelChangeReport_of_live hlive] at hu
      obtain rfl : s.applyRtu (s.rtu.takeOldestReport source) = u := Host.Outcome.next.inj hu
      have hmarks := Rtu.marks_takeOldestReport hr
      have ht := ih (s := s.applyRtu (s.rtu.takeOldestReport source)) hlive
        (Rtu.joinsNothing_of_marks (r' := (s.rtu.takeOldestReport source).rtu) hmarks hr) hrest
      rcases s.rtu.noReportOf_or_oldest source with hnoreport | ⟨before, rep, after, rfl, holdest⟩
      · rwa [Rtu.takeOldestReport_of_none hnoreport, State.applyRtu_quiet_rtu] at ht
      · rw [ht, Rtu.takeReportsOf_of_oldest holdest]
        exact State.applyRtu_andThen (fun r => r.takeReportsOf rep.source) hmarks.1

/-- The waiting reports of a source, and then what the RTU makes of the table, as one event. -/
theorem State.applyRtu_takeReportsOf_andThen (hr : (s.rtu.record source).joinsNothing) (g : Rtu → RtuStep) :
    (s.applyRtu (s.rtu.takeReportsOf source)).applyRtu (g (s.rtu.takeReportsOf source).rtu) =
      s.applyRtu ((s.rtu.takeReportsOf source).andThen g) :=
  State.applyRtu_andThen g (Rtu.marks_takeReportsOf hr).1

theorem Sense.isLevel_iff {x : Sense} : x.isLevel = true ↔ x = .levelHigh ∨ x = .levelLow := by
  cases x <;> simp [Sense.isLevel, Sense.activeLevel]

theorem Sense.active_iff {x : Sense} {level : Accepted} :
    x.active level = true ↔ ∃ k, level = .known k ∧ x.activeLevel = some k := by
  cases level <;> simp [Sense.active]

/-- Reports that are not read, or are not there, are not taken first. -/
theorem Rtu.takeReportsIf_of_imp {reads : Bool} (h : reads = true → r.noReportOf source) :
    r.takeReportsIf reads source = RtuStep.quiet r := by
  cases reads with
  | false => rfl
  | true => exact Rtu.takeReportsIf_of_none (h rfl) true

/-! ### MASK on (R52, R55) -/

theorem exec_maskOn_accepted (htakes : s.takes .mask f) (hbody : f.body = [byteOf source.val, 1])
    (hbound : (s.rtu.record source).status ≠ .unbound) : exec .maskOn s = .next (State.answered
      (s.applyRtu (RtuStep.quiet (s.rtu.maskOn source))) f .ok
      [((s.rtu.maskOn source).record source).status.code, 0] none) := by
  refine exec_of_accept (exec_maskOn_of_takes htakes hbody (by decide)) htakes ?_
  have hread : readMask f.body = .ok (source, true) := by
    rw [hbody]
    exact readMask_of_fields (unitNumber_byteOf (by decide) source) rfl
  have hbound' : ¬ (s.takeFrame.rtu.record source).isBound = false := by
    rw [BindingRecord.isBound_eq_false]
    exact hbound
  simp only [maskOnOwner, hread, if_neg hbound']
  rfl

/-- A member that leaves the set of one line changes the occupancy exactly when it is the last one (R61). -/
theorem Rtu.occupancyChanges_of_left {source : Source} (hmem : source ∈ r.sets.read l)
    (h : r'.sets = r.sets.write l ((r.sets.read l).erase source)) :
    r.occupancyChanges r' = if (r.sets.read l).erase source = [] then [l] else [] := by
  have hothers : ∀ m, m ≠ l → r'.sets.read m = r.sets.read m := fun m hm => by rw [h, Tbl.read_write_of_ne _ _ hm]
  have hbefore : r.sets.read l ≠ [] := List.ne_nil_of_mem hmem
  rw [Rtu.occupancyChanges_of_one l hothers, h, Tbl.read_write_same]
  by_cases hlast : (r.sets.read l).erase source = [] <;> simp [hlast, hbefore]

/-- The state after a member has left the set of one line. -/
theorem State.applyRtu_of_left {x : RtuStep} (hmem : source ∈ s.rtu.sets.read l)
    (h : x.rtu.sets = s.rtu.sets.write l ((s.rtu.sets.read l).erase source)) : s.applyRtu x = { s with
      rtu := x.rtu
      ald := { s.ald with
        triggers := s.ald.triggers ++ x.triggers
        occupancy := s.ald.occupancy ++ if (s.rtu.sets.read l).erase source = [] then [l] else [] }
      nq := { s.nq with posts := s.nq.posts ++ x.posts.map Post.source } } := by
  simp only [State.applyRtu, Rtu.occupancyChanges_of_left hmem h, Nq.hand]

/-- A member leaves its set, and its record is replaced. -/
theorem Rtu.setRecord_leave (r : Rtu) (source : Source) (l : Line) (x : BindingRecord) :
    (r.leave source l).setRecord source x = { r with
      sets := r.sets.write l ((r.sets.read l).erase source)
      records := r.records.write source x } := by
  simp [Rtu.setRecord, Rtu.leave]

/-- MASK on, by the record of its source. -/
theorem maskOn_holdsEvents (htakes : s.takes .mask f) (hbody : f.body = [byteOf source.val, 1])
    (hlawful : s.rtu.lawful) (hbound : (s.rtu.record source).status ≠ .unbound) :
    let x := s.rtu.record source
    (x.mask = true → exec .maskOn s = .next (s.answered f .ok [1, 0] none)) ∧
    (x.mask = false → x.status = .idle →
      exec .maskOn s = .next (State.answered { s with
        rtu := { s.rtu with records := s.rtu.records.write source { x with mask := true } } } f .ok [1, 0] none)) ∧
    (∀ l, x.mask = false → x.status = .pending → x.target = .line l →
      exec .maskOn s = .next (State.answered { s with
        rtu := { s.rtu with
          sets := s.rtu.sets.write l ((s.rtu.sets.read l).erase source)
          records := s.rtu.records.write source
            { x with mask := true, status := .idle, again := false, held := true } }
        ald := { s.ald with
          occupancy := s.ald.occupancy ++ if (s.rtu.sets.read l).erase source = [] then [l] else [] } }
        f .ok [1, 0] none)) := by
  intro x
  obtain ⟨hrecords, hmembers, -⟩ := hlawful
  obtain ⟨-, -, -, hmasked, -⟩ := hrecords source
  rw [exec_maskOn_accepted htakes hbody hbound]
  refine ⟨fun hmask => ?_, fun hmask hidle => ?_, fun l hmask hpending htarget => ?_⟩
  · have hstatus : x.status = .idle := SourceStatus.eq_idle hbound (hmasked hmask)
    have hsame : s.rtu.maskOn source = s.rtu := if_pos hmask
    rw [hsame, State.applyRtu_quiet_rtu, hstatus]
    rfl
  · have hset : s.rtu.maskOn source = s.rtu.setRecord source { x with mask := true } := by
      rcases s.rtu.maskOn_cases source with ⟨hmask', -⟩ | ⟨-, ⟨l, hpending, -⟩ | ⟨-, heq⟩⟩
      · exact absurd (hmask.symm.trans hmask') (by decide)
      · exact absurd (hidle.symm.trans hpending) (by decide)
      · exact heq
    rw [hset, State.applyRtu_quiet_of_same (by rfl), Rtu.record_setRecord_same]
    simp only [hidle]
    rfl
  · have hleft : s.rtu.maskOn source = (s.rtu.leave source l).setRecord source
        { x with mask := true, status := .idle, again := false, held := true } := by
      rcases s.rtu.maskOn_cases source with ⟨hmask', -⟩ | ⟨-, ⟨k, -, htarget', heq⟩ | ⟨hnot, -⟩⟩
      · exact absurd (hmask.symm.trans hmask') (by decide)
      · obtain rfl := Target.line.inj (htarget.symm.trans htarget')
        exact heq
      · exact absurd (htarget.symm.trans (hnot hpending)) nofun
    have hmem : source ∈ s.rtu.sets.read l := (hmembers l source).mpr ⟨hpending, htarget⟩
    rw [hleft, Rtu.record_setRecord_same, Rtu.setRecord_leave, State.applyRtu_of_left hmem (by rfl)]
    simp only [RtuStep.quiet, List.map_nil, List.append_nil]
    rfl

/-! ### MASK off (R53 to R55) -/

theorem exec_maskOff_accepted (htakes : s.takes .mask f) (hbody : f.body = [byteOf source.val, 0])
    (hbound : (s.rtu.record source).status ≠ .unbound) {x : RtuStep}
    (hx : s.rtu.maskOff source (s.scu.level source) s.tbu.hubClock = x) :
    exec .maskOff s = .next (State.answered (s.applyRtu x) f .ok
      [(x.rtu.record source).status.code, flagCode (s.rtu.releases source)] none) := by
  subst hx
  refine exec_of_accept (exec_maskOff_of_takes htakes hbody (by decide)) htakes ?_
  have hread : readMask f.body = .ok (source, false) := by
    rw [hbody]
    exact readMask_of_fields (unitNumber_byteOf (by decide) source) rfl
  have hbound' : ¬ (s.takeFrame.rtu.record source).isBound = false := by
    rw [BindingRecord.isBound_eq_false]
    exact hbound
  simp only [maskOffOwner, hread, if_neg hbound']
  rfl

theorem BindingRecord.unmaskReads_iff {x : BindingRecord} : x.unmaskReads = true ↔
    x.target ≠ .reportOnly ∧ x.held = false ∧ (x.sense = .levelHigh ∨ x.sense = .levelLow) := by
  simp only [BindingRecord.unmaskReads, Bool.and_eq_true, decide_eq_true_eq, Sense.isLevel_iff, Bool.not_eq_true']
  exact ⟨fun ⟨⟨ht, hs⟩, hh⟩ => ⟨ht, hh, hs⟩, fun ⟨ht, hh, hs⟩ => ⟨⟨ht, hs⟩, hh⟩⟩

theorem Rtu.maskOff_of_unmasked (level : Accepted) (now : Time) (h : (r.record source).mask = false) :
    r.maskOff source level now = RtuStep.quiet r := if_neg (by simp [h])

theorem Rtu.releases_of_unmasked (h : (r.record source).mask = false) : r.releases source = false := by
  simp [Rtu.releases, h]

/-- MASK off of a masked source with no report to take first. -/
theorem Rtu.maskOff_of_none (level : Accepted) (now : Time) (hmask : (r.record source).mask = true)
    (h : (r.record source).unmaskReads = true → r.noReportOf source) :
    r.maskOff source level now = r.unmask source level now := by
  rw [Rtu.maskOff, if_pos hmask, Rtu.takeReportsIf_of_imp h, RtuStep.quiet_andThen]

theorem Rtu.releases_of_none (hmask : (r.record source).mask = true)
    (h : (r.record source).unmaskReads = true → r.noReportOf source) :
    r.releases source = (r.record source).held := by
  rw [Rtu.releases, Rtu.takeReportsIf_of_imp h, hmask, RtuStep.rtu_quiet, Bool.true_and]

/-- MASK off of a masked source whose reports are taken first. -/
theorem Rtu.maskOff_of_reads (level : Accepted) (now : Time) (hmask : (r.record source).mask = true)
    (h : (r.record source).unmaskReads = true) :
    r.maskOff source level now = (r.takeReportsOf source).andThen fun r => r.unmask source level now := by
  rw [Rtu.maskOff, if_pos hmask, h]
  rfl

theorem Rtu.releases_of_reads (hmask : (r.record source).mask = true) (h : (r.record source).unmaskReads = true) :
    r.releases source = ((r.takeReportsOf source).rtu.record source).held := by
  rw [Rtu.releases, h, hmask, Bool.true_and]
  rfl

/-- The record after MASK off, before a join. -/
def BindingRecord.bare (x : BindingRecord) : BindingRecord := { x with mask := false, held := false }

/-- The posts of a MASK off that releases an event. -/
def BindingRecord.unmaskPosts (x : BindingRecord) (source : Source) (level : Level) (now : Time) : List SourcePost :=
  if x.held && x.report then [{ source := source, level := level, time := now }] else []

theorem Rtu.unmask_of_reportOnly {level : Level} (now : Time) (h : (r.record source).target = .reportOnly) :
    r.unmask source (.known level) now = {
      rtu := r.setRecord source (r.record source).bare
      triggers := []
      posts := (r.record source).unmaskPosts source level now } := by
  simp only [Rtu.unmask, BindingRecord.bare, h]
  rfl

theorem Rtu.unmask_of_stays {level : Accepted} (now : Time) (h : (r.record source).target = .line l)
    (hheld : (r.record source).held = false) (hactive : (r.record source).sense.active level = false) :
    r.unmask source level now = RtuStep.quiet (r.setRecord source (r.record source).bare) := by
  simp only [Rtu.unmask, BindingRecord.bare, h, hheld, hactive, Bool.or_false, Bool.false_eq_true, if_false]

theorem Rtu.unmask_of_joins {level : Level} (now : Time) (h : (r.record source).target = .line l)
    (hjoins : (r.record source).held = true ∨ (r.record source).sense.activeLevel = some level) :
    r.unmask source (.known level) now = {
      rtu := (r.setRecord source (r.record source).bare).join source l
      triggers := [{ kind := .join, line := l }]
      posts := (r.record source).unmaskPosts source level now } := by
  have hcond : ((r.record source).held || (r.record source).sense.active (.known level)) = true := by
    rw [Bool.or_eq_true]
    exact hjoins.imp id fun h => by simpa [Sense.active] using h
  simp only [Rtu.unmask, BindingRecord.bare, h, hcond, if_true]
  rfl

/-- A source of UNKNOWN level without a held event posts nothing and stays. -/
theorem Rtu.unmask_of_unknown (now : Time) (hheld : (r.record source).held = false) :
    r.unmask source .unknown now = RtuStep.quiet (r.setRecord source (r.record source).bare) := by
  cases htarget : (r.record source).target with
  | reportOnly =>
      simp only [Rtu.unmask, BindingRecord.bare, htarget]
      rfl
  | line l => exact Rtu.unmask_of_stays now htarget hheld rfl

theorem map_source_unmaskPosts (x : BindingRecord) (level : Level) (now : Time) :
    (x.unmaskPosts source level now).map Post.source =
      if x.held = true ∧ x.report = true then [.source { source := source, level := level, time := now }] else [] := by
  unfold BindingRecord.unmaskPosts
  cases x.held <;> cases x.report <;> rfl

end Sys2Proof.Machine
end

section
/-! MASK off and SERVICE, clause by clause (R47 to R56). -/

namespace Sys2Proof.Machine

variable {s t : State} {f : Frame} {r : Rtu} {source : Source} {l : Line} {x : BindingRecord}

/-! ### MASK off -/

theorem Rtu.priority_setRecord (h : x.priority = (r.record source).priority) (m : Source) :
    ((r.setRecord source x).record m).priority = (r.record m).priority := by
  rw [Rtu.record_setRecord]
  split
  next hm => rw [h, hm]
  next => rfl

/-- The place of a joining source depends on the priorities alone. -/
theorem Rtu.joinsBetween_of_setRecord {ahead behind : List Source} (h : x.priority = (r.record source).priority)
    (hbetween : (r.setRecord source x).joinsBetween source l ahead behind) : r.joinsBetween source l ahead behind := by
  simpa only [Rtu.joinsBetween, Rtu.priority_setRecord h, Rtu.sets_setRecord] using hbetween

/-- A MASK off that reads the accepted level has the outcome of one after the waiting reports (log 8). -/
theorem exec_maskOff_after_reports {n : Nat} (htakes : s.takes .mask f) (hbody : f.body = [byteOf source.val, 0])
    (hbound : (s.rtu.record source).status ≠ .unbound) (hmask : (s.rtu.record source).mask = true)
    (hreads : (s.rtu.record source).unmaskReads = true) (ht : s.takesReports source n t) (hnone : t.rtu.noReportOf source) :
    exec .maskOff s = exec .maskOff t := by
  have hjoins : (s.rtu.record source).joinsNothing := .inl hmask
  obtain rfl := State.eq_of_takesReports htakes.1.1 hjoins ht hnone
  obtain ⟨-, again, held, hrecord⟩ := Rtu.marks_takeReportsOf hjoins
  have hmask' : ((s.rtu.takeReportsOf source).rtu.record source).mask = true := by rw [hrecord]; exact hmask
  have hbound' : ((s.rtu.takeReportsOf source).rtu.record source).status ≠ .unbound := by rw [hrecord]; exact hbound
  have htakes' : (s.applyRtu (s.rtu.takeReportsOf source)).takes .mask f := htakes
  rw [exec_maskOff_accepted htakes hbody hbound (Rtu.maskOff_of_reads _ _ hmask hreads),
    exec_maskOff_accepted htakes' hbody hbound' (Rtu.maskOff_of_none _ _ hmask' fun _ => hnone),
    Rtu.releases_of_reads hmask hreads, Rtu.releases_of_none (r := (s.applyRtu _).rtu) hmask' fun _ => hnone,
    ← State.applyRtu_takeReportsOf_andThen hjoins]
  rfl

/-- MASK off of a masked source with no report to take first, by what the unmasking does. -/
theorem exec_maskOff_of_unmask {y : RtuStep} (htakes : s.takes .mask f) (hbody : f.body = [byteOf source.val, 0])
    (hbound : (s.rtu.record source).status ≠ .unbound) (hmask : (s.rtu.record source).mask = true)
    (hreads : (s.rtu.record source).unmaskReads = true → s.rtu.noReportOf source)
    (hy : s.rtu.unmask source (s.scu.level source) s.tbu.hubClock = y) :
    exec .maskOff s = .next (State.answered (s.applyRtu y) f .ok
      [(y.rtu.record source).status.code, flagCode (s.rtu.record source).held] none) := by
  rw [exec_maskOff_accepted htakes hbody hbound ((Rtu.maskOff_of_none _ _ hmask hreads).trans hy),
    Rtu.releases_of_none hmask hreads]

theorem Rtu.lawful_bare (h : r.lawful) (hbound : (r.record source).status ≠ .unbound) :
    (r.setRecord source (r.record source).bare).lawful := by
  obtain ⟨-, hreportOnly, hinternal, -, -, hagain⟩ := h.1 source
  exact Rtu.lawful_setRecord h ⟨fun h => absurd h hbound, hreportOnly, hinternal, nofun, nofun, hagain⟩
    (.inl ⟨rfl, rfl, rfl⟩)

/-- A masked source is IDLE (R52). -/
theorem Rtu.idle_of_masked (h : r.lawful) (hbound : (r.record source).status ≠ .unbound)
    (hmask : (r.record source).mask = true) : (r.record source).status = .idle := by
  obtain ⟨-, -, -, hmasked, -⟩ := h.1 source
  exact SourceStatus.eq_idle hbound (hmasked hmask)

theorem Rtu.status_bare (r : Rtu) (source : Source) :
    ((r.setRecord source (r.record source).bare).record source).status = (r.record source).status := by
  rw [Rtu.record_setRecord_same]
  rfl

/-- MASK off of a masked source that stays IDLE. -/
theorem exec_maskOff_of_quiet (htakes : s.takes .mask f) (hbody : f.body = [byteOf source.val, 0])
    (hlawful : s.rtu.lawful) (hbound : (s.rtu.record source).status ≠ .unbound)
    (hmask : (s.rtu.record source).mask = true) (hheld : (s.rtu.record source).held = false)
    (hreads : (s.rtu.record source).unmaskReads = true → s.rtu.noReportOf source)
    (hy : s.rtu.unmask source (s.scu.level source) s.tbu.hubClock =
      RtuStep.quiet (s.rtu.setRecord source (s.rtu.record source).bare)) :
    exec .maskOff s = .next (State.answered { s with
      rtu := { s.rtu with records := s.rtu.records.write source (s.rtu.record source).bare } } f .ok [1, 0] none) := by
  rw [exec_maskOff_of_unmask htakes hbody hbound hmask hreads hy, State.applyRtu_quiet_of_same (by rfl),
    RtuStep.rtu_quiet, Rtu.status_bare, Rtu.idle_of_masked hlawful hbound hmask, hheld]
  rfl

theorem exec_maskOff_of_reportOnly {level : Level} (htakes : s.takes .mask f) (hbody : f.body = [byteOf source.val, 0])
    (hlawful : s.rtu.lawful) (hbound : (s.rtu.record source).status ≠ .unbound)
    (hmask : (s.rtu.record source).mask = true) (hlevel : s.scu.level source = .known level)
    (hreads : (s.rtu.record source).unmaskReads = true → s.rtu.noReportOf source)
    (htarget : (s.rtu.record source).target = .reportOnly) :
    exec .maskOff s = .next (State.answered { s with
      rtu := { s.rtu with records := s.rtu.records.write source (s.rtu.record source).bare }
      nq := { s.nq with posts := s.nq.posts ++
        if (s.rtu.record source).held = true ∧ (s.rtu.record source).report = true then
          [.source { source := source, level := level, time := s.tbu.hubClock }]
        else [] } } f .ok [1, flagCode (s.rtu.record source).held] none) := by
  have hy := Rtu.unmask_of_reportOnly (level := level) s.tbu.hubClock htarget
  rw [← hlevel] at hy
  rw [exec_maskOff_of_unmask htakes hbody hbound hmask hreads hy, State.applyRtu_of_same (by rfl)]
  simp only [map_source_unmaskPosts, Rtu.status_bare, Rtu.idle_of_masked hlawful hbound hmask, List.append_nil]
  rfl

theorem exec_maskOff_of_joins {level : Level} (htakes : s.takes .mask f) (hbody : f.body = [byteOf source.val, 0])
    (hlawful : s.rtu.lawful) (hbound : (s.rtu.record source).status ≠ .unbound)
    (hmask : (s.rtu.record source).mask = true) (hlevel : s.scu.level source = .known level)
    (hreads : (s.rtu.record source).unmaskReads = true → s.rtu.noReportOf source)
    (htarget : (s.rtu.record source).target = .line l)
    (hjoins : (s.rtu.record source).held = true ∨ (s.rtu.record source).sense.activeLevel = some level) :
    ∃ ahead behind, s.rtu.joinsBetween source l ahead behind ∧
      exec .maskOff s = .next (State.answered { s with
        rtu := { s.rtu with
          sets := s.rtu.sets.write l (ahead ++ source :: behind)
          records := s.rtu.records.write source { (s.rtu.record source).bare with status := .pending } }
        ald := { s.ald with
          triggers := s.ald.triggers ++ [{ kind := .join, line := l }]
          occupancy := s.ald.occupancy ++ if s.rtu.sets.read l = [] then [l] else [] }
        nq := { s.nq with posts := s.nq.posts ++
          if (s.rtu.record source).held = true ∧ (s.rtu.record source).report = true then
            [.source { source := source, level := level, time := s.tbu.hubClock }]
          else [] } } f .ok [2, flagCode (s.rtu.record source).held] none) := by
  obtain ⟨-, -, -, hordered⟩ := Rtu.lawful_bare hlawful hbound
  obtain ⟨ahead, behind, hbetween, hjoin⟩ :=
    Rtu.join_eq (s.rtu.setRecord source (s.rtu.record source).bare) source l (hordered l)
  refine ⟨ahead, behind, Rtu.joinsBetween_of_setRecord (x := (s.rtu.record source).bare) rfl hbetween, ?_⟩
  have hy := Rtu.unmask_of_joins s.tbu.hubClock htarget hjoins
  have hstatus : (Rtu.record ((s.rtu.setRecord source (s.rtu.record source).bare).join source l) source).status =
      .pending := by
    rw [Rtu.record_join, if_pos rfl]
  have hrecords : (s.rtu.setRecord source (s.rtu.record source).bare).records.write source
      { (s.rtu.setRecord source (s.rtu.record source).bare).record source with status := .pending } =
        s.rtu.records.write source { (s.rtu.record source).bare with status := .pending } := by
    rw [Rtu.record_setRecord_same]
    exact Tbl.write_write ..
  rw [← hlevel] at hy
  rw [exec_maskOff_of_unmask htakes hbody hbound hmask hreads hy,
    State.applyRtu_of_joined (source := source) (ahead := ahead) (behind := behind) (l := l) (by rw [hjoin]; rfl), hstatus,
    hjoin]
  simp only [map_source_unmaskPosts, hrecords]
  rfl

/-- Settles O46: MASK on by the record of its source, and MASK off by its target, its held event and its activity. -/
theorem maskHoldsAndReleasesEvents : Obligations.MaskHoldsAndReleasesEvents := by
  refine ⟨fun s f source => maskOn_holdsEvents, fun s f source htakes hbody hlawful hbound => ?_⟩
  intro x bare reads
  have hnoReport (hmask : x.mask = true) (h : reads → s.rtu.noReportOf source) :
      x.unmaskReads = true → s.rtu.noReportOf source := fun hreads => h ⟨hmask, BindingRecord.unmaskReads_iff.mp hreads⟩
  refine ⟨fun ⟨hmask, hreads⟩ n t ht hnone => exec_maskOff_after_reports htakes hbody hbound hmask
      (BindingRecord.unmaskReads_iff.mpr hreads) ht hnone, fun hmask => ?_, fun hlevels hunknown hmask => ?_,
    fun level hlevel h => ⟨fun hmask htarget => ?_, fun l hmask htarget hheld hinactive => ?_,
      fun l hmask htarget hjoins => ?_⟩⟩
  · rw [exec_maskOff_accepted htakes hbody hbound (Rtu.maskOff_of_unmasked _ _ hmask), State.applyRtu_quiet_rtu,
      Rtu.releases_of_unmasked hmask]
    rfl
  · obtain ⟨-, hheld, hnone⟩ := hlevels source hunknown
    exact exec_maskOff_of_quiet htakes hbody hlawful hbound hmask hheld (fun _ => hnone)
      (hunknown ▸ Rtu.unmask_of_unknown _ hheld)
  · exact exec_maskOff_of_reportOnly htakes hbody hlawful hbound hmask hlevel (hnoReport hmask h) htarget
  · have hactive : x.sense.active (s.scu.level source) = false := by
      rw [hlevel]
      exact decide_eq_false hinactive
    exact exec_maskOff_of_quiet htakes hbody hlawful hbound hmask hheld (hnoReport hmask h)
      (Rtu.unmask_of_stays _ htarget hheld hactive)
  · exact exec_maskOff_of_joins htakes hbody hlawful hbound hmask hlevel (hnoReport hmask h) htarget hjoins

end Sys2Proof.Machine
end

section
/-! SERVICE: the source rejoins its set, or goes IDLE (R47 to R51). -/

namespace Sys2Proof.Machine

variable {s t : State} {f : Frame} {r : Rtu} {source : Source} {l : Line}

/-! ### At the RTU -/

theorem BindingRecord.serviceReads_iff {x : BindingRecord} :
    x.serviceReads = true ↔ x.again = false ∧ (x.sense = .levelHigh ∨ x.sense = .levelLow) := by
  simp only [BindingRecord.serviceReads, Bool.and_eq_true, Sense.isLevel_iff, Bool.not_eq_true']
  exact and_comm

/-- SERVICE with no report to take first. -/
theorem Rtu.service_of_none (level : Accepted) (htarget : (r.record source).target = .line l)
    (h : (r.record source).serviceReads = true → r.noReportOf source) :
    r.service source level = r.serve source l level := by
  simp only [Rtu.service, htarget, Rtu.takeReportsIf_of_imp h, RtuStep.quiet_andThen]

/-- SERVICE that takes the waiting reports of its source first. -/
theorem Rtu.service_of_reads (level : Accepted) (htarget : (r.record source).target = .line l)
    (h : (r.record source).serviceReads = true) :
    r.service source level = (r.takeReportsOf source).andThen fun r => r.serve source l level := by
  simp only [Rtu.service, htarget, h, Rtu.takeReportsIf, if_true]

/-- The table after a PENDING source has left its set with again clear. -/
def Rtu.served (r : Rtu) (source : Source) (l : Line) : Rtu :=
  (r.leave source l).setRecord source { (r.leave source l).record source with again := false }

theorem Rtu.serve_of_rejoins {level : Accepted}
    (h : (r.record source).again = true ∨ (r.record source).sense.active level = true) :
    r.serve source l level =
      { rtu := (r.served source l).join source l, triggers := [{ kind := .join, line := l }], posts := [] } :=
  if_pos (by rwa [Bool.or_eq_true])

theorem Rtu.serve_of_leaves {level : Accepted} (hagain : (r.record source).again = false)
    (hactive : (r.record source).sense.active level = false) : r.serve source l level =
      { rtu := r.leave source l
        triggers := if (r.sets.read l).erase source = [] then [] else [{ kind := .reminder, line := l }]
        posts := [] } := by
  have hstays : ¬ ((r.record source).again || (r.record source).sense.active level) = true := by simp [hagain, hactive]
  refine (if_neg hstays).trans ?_
  simp only [Rtu.nonempty_eq_decide, Rtu.sets_leave_same, decide_eq_true_eq, ite_not]
  rfl

theorem Rtu.served_eq (r : Rtu) (source : Source) (l : Line) : r.served source l =
    (r.leave source l).setRecord source { r.record source with status := .idle, again := false } := by
  rw [Rtu.served, Rtu.record_leave_same]

theorem Rtu.record_served : (r.served source l).record source =
    { r.record source with status := .idle, again := false } := by
  rw [Rtu.served_eq, Rtu.record_setRecord_same]

theorem Rtu.priority_served (m : Source) : ((r.served source l).record m).priority = (r.record m).priority := by
  rw [Rtu.served_eq, Rtu.record_setRecord]
  split
  next hm => rw [hm]
  next hm => rw [Rtu.record_leave_of_ne hm]

theorem Rtu.lawful_served (h : r.lawful) (hpending : (r.record source).status = .pending)
    (htarget : (r.record source).target = .line l) : (r.served source l).lawful := by
  obtain ⟨-, -, hinternal, -, hheld, -⟩ := h.1 source
  rw [Rtu.served_eq]
  refine Rtu.lawful_leave h hpending htarget ⟨nofun, fun _ ht => ?_, hinternal, nofun, hheld, nofun⟩ nofun
  exact absurd (htarget.symm.trans ht) nofun

/-- The place at which a source rejoins its set, and the table after it. -/
theorem Rtu.join_served (h : r.lawful) (hpending : (r.record source).status = .pending)
    (htarget : (r.record source).target = .line l) :
    ∃ ahead behind, (r.sets.read l).erase source = ahead ++ behind ∧
      (∀ m ∈ ahead, (r.record m).priority ≤ (r.record source).priority) ∧
      (∀ m ∈ behind, (r.record source).priority < (r.record m).priority) ∧
      (r.served source l).join source l = { r with
        sets := r.sets.write l (ahead ++ source :: behind)
        records := r.records.write source { r.record source with again := false } } := by
  obtain ⟨-, -, -, hordered⟩ := Rtu.lawful_served h hpending htarget
  obtain ⟨ahead, behind, ⟨hsplit, hahead, hbehind⟩, hjoin⟩ := Rtu.join_eq (r.served source l) source l (hordered l)
  simp only [Rtu.priority_served] at hahead hbehind
  have hrecord : { (r.served source l).record source with status := .pending } =
      { r.record source with again := false } := by
    rw [Rtu.record_served, ← hpending]
  have hset : (r.served source l).sets.read l = (r.sets.read l).erase source := Rtu.sets_leave_same ..
  refine ⟨ahead, behind, hset.symm.trans hsplit, hahead, hbehind, ?_⟩
  rw [hjoin, hrecord, Rtu.served_eq, Rtu.setRecord_leave]
  simp only [Tbl.write_write]

/-! ### The command -/

theorem exec_service_accepted {x : RtuStep} (htakes : s.takes .service f) (hbody : f.body = [byteOf source.val])
    (hpending : (s.rtu.record source).status = .pending) (hx : s.rtu.service source (s.scu.level source) = x) :
    exec .service s = .next (State.answered (s.applyRtu x) f .ok [(x.rtu.record source).status.code] none) := by
  subst hx
  refine exec_of_accept (owner := serviceOwner) rfl htakes ?_
  have hpending' : (s.takeFrame.rtu.record source).status = .pending := hpending
  rw [hbody, serviceOwner, oneField_of_some (unitNumber_byteOf (by decide) source)]
  simp only [hpending']
  rfl

/-- A SERVICE that reads the accepted level has the outcome of one after the waiting reports (log 8). -/
theorem exec_service_after_reports {n : Nat} (htakes : s.takes .service f) (hbody : f.body = [byteOf source.val])
    (hpending : (s.rtu.record source).status = .pending) (htarget : (s.rtu.record source).target = .line l)
    (hreads : (s.rtu.record source).serviceReads = true) (ht : s.takesReports source n t)
    (hnone : t.rtu.noReportOf source) : exec .service s = exec .service t := by
  have hjoins : (s.rtu.record source).joinsNothing := .inr hpending
  obtain rfl := State.eq_of_takesReports htakes.1.1 hjoins ht hnone
  obtain ⟨-, again, held, hrecord⟩ := Rtu.marks_takeReportsOf hjoins
  have hpending' : ((s.rtu.takeReportsOf source).rtu.record source).status = .pending := by rw [hrecord]; exact hpending
  have htarget' : ((s.rtu.takeReportsOf source).rtu.record source).target = .line l := by rw [hrecord]; exact htarget
  have htakes' : (s.applyRtu (s.rtu.takeReportsOf source)).takes .service f := htakes
  rw [exec_service_accepted htakes hbody hpending (Rtu.service_of_reads _ htarget hreads),
    exec_service_accepted htakes' hbody hpending' (Rtu.service_of_none _ htarget' fun _ => hnone),
    ← State.applyRtu_takeReportsOf_andThen hjoins]
  rfl

/-- Settles O47: the source leaves its set, and rejoins it or not. -/
theorem serviceRejoinsOrGoesIdle : Obligations.ServiceRejoinsOrGoesIdle := by
  intro s f source l htakes hbody hlawful hpending htarget x left active reads
  have hmem : source ∈ s.rtu.sets.read l := (hlawful.2.1 l source).mpr ⟨hpending, htarget⟩
  have hserve (h : reads → s.rtu.noReportOf source) {y : RtuStep}
      (hy : s.rtu.serve source l (s.scu.level source) = y) :
      exec .service s = .next (State.answered (s.applyRtu y) f .ok [(y.rtu.record source).status.code] none) :=
    exec_service_accepted htakes hbody hpending ((Rtu.service_of_none _ htarget fun hreads =>
      h (BindingRecord.serviceReads_iff.mp hreads)).trans hy)
  refine ⟨fun hreads n t => exec_service_after_reports htakes hbody hpending htarget
    (BindingRecord.serviceReads_iff.mpr hreads), fun h hrejoins => ?_, fun h hagain hinactive => ?_⟩
  · obtain ⟨ahead, behind, hsplit, hahead, hbehind, hjoin⟩ := Rtu.join_served hlawful hpending htarget
    refine ⟨ahead, behind, hsplit, hahead, hbehind, ?_⟩
    have hnotFirst : s.rtu.sets.read l ≠ [] := List.ne_nil_of_mem hmem
    have hstatus : (Rtu.record ((s.rtu.served source l).join source l) source).status = .pending := by
      rw [Rtu.record_join, if_pos rfl]
    rw [hserve h (Rtu.serve_of_rejoins (hrejoins.imp_right Sense.active_iff.mpr)), State.applyRtu_of_joined
      (source := source) (ahead := ahead) (behind := behind) (l := l) (by rw [hjoin]), hstatus, hjoin, if_neg hnotFirst]
    simp only [List.map_nil, List.append_nil]
    rfl
  · have hactive : x.sense.active (s.scu.level source) = false :=
      Bool.eq_false_iff.mpr (mt Sense.active_iff.mp hinactive)
    rw [hserve h (Rtu.serve_of_leaves hagain hactive), State.applyRtu_of_left hmem (by rfl), Rtu.record_leave_same]
    simp only [List.map_nil, List.append_nil]
    rfl

end Sys2Proof.Machine
end

section
/-! UNBIND: the posts handed before it are taken first, and then the record is cleared (R29 to R34; log 9). -/

namespace Sys2Proof.Machine

variable {s t : State} {f : Frame} {r : Rtu} {source : Source} {l : Line}

/-! ### Taking a post, apart from the other posts and the receive buffer -/

/-- The state with other posts and another receive buffer. -/
def State.aside (s : State) (posts : List Post) (buffer : List Buffered) : State :=
  { s with nq := { s.nq with posts := posts }, mlk := { s.mlk with buffer := buffer } }

variable (posts : List Post) (buffer : List Buffered)

theorem State.startNotice_aside (s : State) : (s.aside posts buffer).startNotice = s.startNotice.aside posts buffer := by
  unfold State.startNotice
  rw [show (s.aside posts buffer).mlk.sender = s.mlk.sender from rfl,
    show (s.aside posts buffer).nq.queue = s.nq.queue from rfl]
  cases s.mlk.sender.roundList with
  | cons number rest => rfl
  | nil => cases s.nq.queue.find? Entry.isUnsent <;> rfl

theorem State.startNext_aside (s : State) : (s.aside posts buffer).startNext = s.startNext.aside posts buffer := by
  unfold State.startNext
  rw [show (s.aside posts buffer).mlk.tx = s.mlk.tx from rfl,
    show (s.aside posts buffer).mlk.replies = s.mlk.replies from rfl,
    show (s.aside posts buffer).noticeClaim = s.noticeClaim from rfl, State.startNotice_aside]
  cases s.mlk.tx with
  | reply => rfl
  | notice frame => rfl
  | idle =>
      cases s.mlk.replies with
      | cons reply rest => rfl
      | nil => cases s.noticeClaim <;> rfl

theorem Nq.recordLoss_withPosts (n : Nq) (now : Time) :
    Nq.recordLoss { n with posts := posts } now = { n.recordLoss now with posts := posts } := by
  unfold Nq.recordLoss
  split <;> rfl

theorem Nq.takeSource_withPosts (n : Nq) (now : Time) (p : SourcePost) :
    Nq.takeSource { n with posts := posts } now p = { n.takeSource now p with posts := posts } := by
  unfold Nq.takeSource
  rw [Nq.recordLoss_withPosts]
  split
  · rfl
  · split <;> rfl

theorem Nq.takeGrant_withPosts (n : Nq) (now : Time) (e : GrantEvent) :
    Nq.takeGrant { n with posts := posts } now e = { n.takeGrant now e with posts := posts } := by
  unfold Nq.takeGrant
  rw [Nq.recordLoss_withPosts]
  split <;> rfl

theorem Nq.takePost_withPosts (n : Nq) (now : Time) (p : Post) :
    Nq.takePost { n with posts := posts } now p = { n.takePost now p with posts := posts } := by
  cases p with
  | source p => exact Nq.takeSource_withPosts posts n now p
  | grant e => exact Nq.takeGrant_withPosts posts n now e

theorem State.takePost_aside (s : State) (p : Post) :
    (s.aside posts buffer).takePost p = (s.takePost p).aside posts buffer := by
  have htaken : (s.aside posts buffer).nq.takePost s.now p = { s.nq.takePost s.now p with posts := posts } :=
    Nq.takePost_withPosts posts s.nq s.now p
  rw [State.takePost, State.takePost, ← State.startNext_aside, show (s.aside posts buffer).now = s.now from rfl, htaken]
  rfl

variable {posts buffer}

/-- The posts handed before a request, of which the first is taken already. -/
theorem State.takePosts_takeFrame_of_cons {p : Post} {rest : List Post} (hposts : s.nq.posts = p :: rest) :
    s.takeFrame.takePosts = ((s.withNq { s.nq with posts := rest }).takePost p).takeFrame.takePosts := by
  have hbuffer : (s.takePost p).mlk.buffer = s.mlk.buffer := (State.takePost_frame s p).2.2.2.2.1
  have htaken : (s.withNq { s.nq with posts := rest }).takePost p = (s.takePost p).aside rest s.mlk.buffer :=
    State.takePost_aside rest s.mlk.buffer s p
  have hfirst : (s.takeFrame.withNq { s.nq with posts := [] }).takePost p = (s.takePost p).aside [] s.mlk.buffer.tail :=
    State.takePost_aside [] s.mlk.buffer.tail s p
  rw [htaken]
  unfold State.takePosts
  rw [show s.takeFrame.nq = s.nq from rfl, hposts, List.foldl_cons, hfirst]
  rfl

/-- With no post waiting none is taken. -/
theorem State.takePosts_of_nil (h : s.nq.posts = []) : s.takePosts = s := by
  unfold State.takePosts
  rw [h, List.foldl_nil, ← h]
  rfl

/-! ### UNBIND at its owner -/

theorem unbindOwner_of_bound {b : Byte} (hsource : unitNumber 30 b = some source)
    (hbound : (s.rtu.record source).status ≠ .unbound) : unbindOwner [b] s = (s.takePosts.unbind source).accept
      [(s.rtu.record source).status.code, byteOf (s.takePosts.nq.withdrawals source)] := by
  have hbound' : ¬ (s.rtu.record source).isBound = false := by rwa [BindingRecord.isBound_eq_false]
  simp only [unbindOwner, oneField_of_some hsource, if_neg hbound']

theorem exec_unbind_of_takes (htakes : s.takes .unbind f) (hbody : f.body = [byteOf source.val])
    (hbound : (s.rtu.record source).status ≠ .unbound) :
    exec .unbind s = .next (State.finish f ((s.takeFrame.takePosts.unbind source).accept
      [(s.rtu.record source).status.code, byteOf (s.takeFrame.takePosts.nq.withdrawals source)])) := by
  refine congrArg Host.Outcome.next ((State.execute_of_takes htakes unbindOwner).trans ?_)
  rw [hbody, unbindOwner_of_bound (s := s.takeFrame) (unitNumber_byteOf (by decide) source) hbound]
  rfl

/-- The command in which the NQ takes a post (log 9). -/
def Post.command : Post → Instr
  | .source _ => .sourceEventPost
  | .grant _ => .grantEventPost

/-- The command of a post takes the oldest post. -/
theorem exec_postCommand_of_cons {p : Post} {rest : List Post} (hlive : s.live = true) (hposts : s.nq.posts = p :: rest) :
    exec p.command s =
      .next ((s.withNq { s.nq with posts := rest }).takePost p) := by
  cases p with
  | source p =>
      refine congrArg Host.Outcome.next ((State.whenLive_of_live hlive _).trans ?_)
      simp only [hposts]
  | grant e =>
      refine congrArg Host.Outcome.next ((State.whenLive_of_live hlive _).trans ?_)
      simp only [hposts]

/-- Taking a post leaves the request at the head of the receive buffer. -/
theorem State.takes_takePost {kind : RequestKind} (htakes : s.takes kind f) (p : Post) : (s.takePost p).takes kind f := by
  obtain ⟨⟨hlive, hreplies, hhead⟩, hkind, hsaved⟩ := htakes
  obtain ⟨-, htbu, -, -, hbuffer, hreplies'⟩ := State.takePost_frame s p
  obtain ⟨tx, sender, hmlk⟩ := State.startNext_mlk (s := (s.withNq (s.nq.takePost s.now p)).evaluate)
  have hsaved' : (s.takePost p).mlk.saved = s.mlk.saved := by
    rw [State.takePost, hmlk]
    rfl
  exact ⟨⟨by rwa [State.live, htbu], by rwa [hreplies'], by rwa [hbuffer]⟩, hkind, by rwa [hsaved']⟩

/-- UNBIND after the oldest post has been taken by its own command (log 9). -/
theorem exec_unbind_after_post {p : Post} {rest : List Post} (htakes : s.takes .unbind f)
    (hbody : f.body = [byteOf source.val]) (hbound : (s.rtu.record source).status ≠ .unbound)
    (hposts : s.nq.posts = p :: rest) :
    exec .unbind s = exec .unbind ((s.withNq { s.nq with posts := rest }).takePost p) := by
  have hrecord : ((s.withNq { s.nq with posts := rest }).takePost p).rtu.record source = s.rtu.record source := by
    rw [State.takePost, State.rtu_startNext]
    rfl
  have htakes' : ((s.withNq { s.nq with posts := rest }).takePost p).takes .unbind f :=
    State.takes_takePost (s := s.withNq { s.nq with posts := rest }) htakes p
  rw [exec_unbind_of_takes htakes hbody hbound, exec_unbind_of_takes htakes' hbody (by rwa [hrecord]), hrecord,
    State.takePosts_takeFrame_of_cons hposts]

/-! ### The record -/

theorem exec_unbind_of_noPosts (htakes : s.takes .unbind f) (hbody : f.body = [byteOf source.val])
    (hbound : (s.rtu.record source).status ≠ .unbound) (hposts : s.nq.posts = []) :
    exec .unbind s = .next (State.answered (s.unbind source) f .ok
      [(s.rtu.record source).status.code, if s.nq.queue.any (Entry.isUnsentOf source) then 1 else 0] none) := by
  rw [exec_unbind_of_takes htakes hbody hbound, State.takePosts_of_nil (s := s.takeFrame) hposts]
  have hcount : byteOf (s.takeFrame.nq.withdrawals source) =
      if s.nq.queue.any (Entry.isUnsentOf source) then 1 else 0 := apply_ite byteOf _ _ _
  rw [hcount]
  exact congrArg Host.Outcome.next (State.finish_accept (s.unbind source) f _)

/-- UNBIND of an IDLE source. -/
theorem State.unbind_of_idle (h : (s.rtu.record source).status = .idle) : s.unbind source = State.evaluate { s with
    scu := s.scu.changeFilter source (s.rtu.record source).filter 0
    rtu := { s.rtu with records := s.rtu.records.write source BindingRecord.unbound }
    nq := s.nq.removeFirst (Entry.isUnsentOf source) } := by
  have hunbind : s.rtu.unbind source = s.rtu.setRecord source BindingRecord.unbound := by
    rcases s.rtu.unbind_cases source with ⟨l, hpending, -⟩ | ⟨-, heq⟩
    · exact absurd (h.symm.trans hpending) (by decide)
    · exact heq
  rw [State.unbind, hunbind]
  simp only []
  rw [State.applyRtu_quiet_of_same (by rfl)]
  rfl

/-- UNBIND of a PENDING source. -/
theorem State.unbind_of_pending (h : (s.rtu.record source).status = .pending)
    (htarget : (s.rtu.record source).target = .line l) (hmem : source ∈ s.rtu.sets.read l) :
    s.unbind source = State.evaluate { s with
      scu := s.scu.changeFilter source (s.rtu.record source).filter 0
      rtu := { s.rtu with
        sets := s.rtu.sets.write l ((s.rtu.sets.read l).erase source)
        records := s.rtu.records.write source BindingRecord.unbound }
      ald := { s.ald with
        occupancy := s.ald.occupancy ++ if (s.rtu.sets.read l).erase source = [] then [l] else [] }
      nq := s.nq.removeFirst (Entry.isUnsentOf source) } := by
  have hunbind : s.rtu.unbind source = (s.rtu.leave source l).setRecord source BindingRecord.unbound := by
    rcases s.rtu.unbind_cases source with ⟨k, -, htarget', heq⟩ | ⟨hnot, -⟩
    · obtain rfl := Target.line.inj (htarget.symm.trans htarget')
      exact heq
    · exact absurd (htarget.symm.trans (hnot h)) nofun
  rw [State.unbind, hunbind, Rtu.setRecord_leave]
  simp only []
  rw [State.applyRtu_of_left
    (s := (s.withScu (s.scu.changeFilter source (s.rtu.record source).filter 0)).withNq (s.nq.withdraw source)) hmem
    (by rfl)]
  simp only [RtuStep.quiet, List.map_nil, List.append_nil]
  rfl

/-- Settles O45. -/
theorem unbindClearsRecord : Obligations.UnbindClearsRecord := by
  intro s f source htakes hbody hbound
  refine ⟨fun p rest t hposts hexec => ?_, fun hposts => ⟨fun hidle => ?_, fun l hpending htarget hmem => ?_⟩⟩
  · have hexec : exec p.command s = .next t := by cases p <;> exact hexec
    obtain rfl := Host.Outcome.next.inj ((exec_postCommand_of_cons htakes.1.1 hposts).symm.trans hexec)
    exact exec_unbind_after_post htakes hbody hbound hposts
  · rw [exec_unbind_of_noPosts htakes hbody hbound hposts, State.unbind_of_idle hidle, hidle]
    simp only [List.append_nil]
    rfl
  · rw [exec_unbind_of_noPosts htakes hbody hbound hposts, State.unbind_of_pending hpending htarget hmem, hpending]
    rfl

end Sys2Proof.Machine
end
